-- ==== Sys2Proof/Word.lean ====
section
/-! DEFINITION. The word types of the RADIAN codec/sequencer block (00_scope.md R9: a byte is 8 bits, a word is 32 bits). -/

namespace Sys2Proof

/-- A byte (00_scope.md R9). -/
abbrev Byte := BitVec 8

/-- A 32-bit word: a CSR, a command word, a time in milliseconds (00_scope.md R9). -/
abbrev Word := BitVec 32

/-- A host byte address, space in bits 15:12 and offset in bits 11:0 (20_memory.md R41). -/
abbrev HostAddr := BitVec 16

/-- A transceiver register address or chip command code (00_scope.md R8: 6 bits). -/
abbrev ChipAddr := BitVec 6

/-- A chip-state value: the state register masked to its low 5 bits (00_scope.md R8, 41_rf_lifecycle.md R93). -/
abbrev ChipState := BitVec 5

end Sys2Proof
end

