-- ==== Sys2Proof/Machine/Crc.lean ====
section
/-! DEFINITION. The checksum (42_checksum.md): the lookup table and the procedure `Crc`. -/

namespace Sys2Proof.Machine

/-- One reflected shift step (42_checksum.md R99). -/
def crcShift (c : BitVec 16) : BitVec 16 := if c.getLsbD 0 then (c >>> 1) ^^^ 0x8408#16 else c >>> 1

/-- `T(i)`: eight reflected shift steps of the index (42_checksum.md R99). -/
def crcEntry (i : Byte) : BitVec 16 :=
  crcShift (crcShift (crcShift (crcShift (crcShift (crcShift (crcShift (crcShift (i.setWidth 16))))))))

/-- One table-driven update of the accumulator by one byte (42_checksum.md R101). -/
def crcUpdate (crc : BitVec 16) (b : Byte) : BitVec 16 := (crc >>> 8) ^^^ crcEntry (crc.setWidth 8 ^^^ b)

/-- The raw accumulator of `Crc`: initial value 0, one byte at a time, no final XOR (42_checksum.md R101). -/
def crcRaw (bytes : List Byte) : BitVec 16 := bytes.foldl crcUpdate 0

/-- The value the routine returns: high and low byte of the raw accumulator swapped (42_checksum.md R101). -/
def crcSwap (raw : BitVec 16) : BitVec 16 := raw.extractLsb' 0 8 ++ raw.extractLsb' 8 8

/-- `Crc(bytes)`, the returned value `out` (42_checksum.md R101). -/
def crcOut (bytes : List Byte) : BitVec 16 := crcSwap (crcRaw bytes)

/-- The byte at an offset of CRCT: entry i at 2i (bits 7:0) and 2i + 1 (bits 15:8) (42_checksum.md R99). -/
def crctByte (off : Nat) : Byte :=
  let e := crcEntry (BitVec.ofNat 8 (off / 2))
  if off % 2 = 0 then e.extractLsb' 0 8 else e.extractLsb' 8 8

end Sys2Proof.Machine
end

