-- ==== Sys2Proof/Syntax.lean ====
section
/-! DEFINITION. The instruction set: the 23 commands of spec/opcode_table.json (30_encoding.md R59). A command has no
operand in its word; its operands are the `ARGk` registers at the `CMD` write (30_encoding.md R57, R63). -/

namespace Sys2Proof

/-- One constructor for each row of spec/opcode_table.json. -/
inductive Instr where
  /-- `NOP`, OPC 0x00 (45_read_sequencer.md R149). -/
  | nop
  /-- `WREG addr, value`, OPC 0x01 (40_bus_access.md R77). -/
  | wreg
  /-- `RREG addr`, OPC 0x02 (R78). -/
  | rreg
  /-- `RBURST addr, n`, OPC 0x03 (R79). -/
  | rburst
  /-- `WBURST addr, n`, OPC 0x04 (R80). -/
  | wburst
  /-- `STROBE k`, OPC 0x05 (R81). -/
  | strobe
  /-- `RESET`, OPC 0x10 (41_rf_lifecycle.md R90). -/
  | reset
  /-- `PROBE`, OPC 0x11 (R91). -/
  | probe
  /-- `CONFIGURE hz`, OPC 0x12 (R92). -/
  | configure
  /-- `ENTER_RX`, OPC 0x13 (R93). -/
  | enterRx
  /-- `INIT`, OPC 0x14 (R94). -/
  | init
  /-- `DIAG`, OPC 0x15 (R95). -/
  | diag
  /-- `RSSI_DBM raw`, OPC 0x16 (R96). -/
  | rssiDbm
  /-- `FREQ_WORD hz`, OPC 0x17 (R97). -/
  | freqWord
  /-- `FREQ_HZ w`, OPC 0x18 (R98). -/
  | freqHz
  /-- `CRC16 src, n`, OPC 0x20 (42_checksum.md R105). -/
  | crc16
  /-- `BUILD_REQ`, OPC 0x21 (43_framer.md R110). -/
  | buildReq
  /-- `ENCODE src, n, dst`, OPC 0x22 (R111). -/
  | encode
  /-- `DECODE src, R, dst, cap`, OPC 0x23 (44_decoder.md R126). -/
  | decode
  /-- `SENTCHK src, n`, OPC 0x24 (R127). -/
  | sentchk
  /-- `EXTRACT src, L`, OPC 0x25 (R128). -/
  | extract
  /-- `START_READ publish`, OPC 0x30 (45_read_sequencer.md R150). -/
  | startRead
  /-- `TICK`, OPC 0x31 (R151). -/
  | tick
  deriving DecidableEq, Repr

/-- The seven command strobes, in the document's order (30_encoding.md R65). -/
inductive Strobe where
  | reset | flushRx | flushTx | idle | rx | tx | nop
  deriving DecidableEq, Repr

/-- Why a command word is no instruction (30_encoding.md R60). -/
inductive DecodeError where
  /-- `OPC` is not in the opcode map (R60(a)). -/
  | illegalOpcode
  /-- A legal `OPC` with any of bits 31:8 set (R60(b)). -/
  | reservedBits
  deriving DecidableEq, Repr

end Sys2Proof
end

