-- ==== Sys2Proof/Decode.lean ====
section
/-! DEFINITION. The command decoder and the encoder (30_encoding.md R57 to R60), and the opcode map's column "allowed
during a session" (R59). -/

namespace Sys2Proof

/-- The opcode map of 30_encoding.md R59, read from `OPC`. Every value it does not list is illegal. -/
def instrOfOpcode (opc : Byte) : Option Instr :=
  match opc.toNat with
  | 0x00 => some .nop
  | 0x01 => some .wreg
  | 0x02 => some .rreg
  | 0x03 => some .rburst
  | 0x04 => some .wburst
  | 0x05 => some .strobe
  | 0x10 => some .reset
  | 0x11 => some .probe
  | 0x12 => some .configure
  | 0x13 => some .enterRx
  | 0x14 => some .init
  | 0x15 => some .diag
  | 0x16 => some .rssiDbm
  | 0x17 => some .freqWord
  | 0x18 => some .freqHz
  | 0x20 => some .crc16
  | 0x21 => some .buildReq
  | 0x22 => some .encode
  | 0x23 => some .decode
  | 0x24 => some .sentchk
  | 0x25 => some .extract
  | 0x30 => some .startRead
  | 0x31 => some .tick
  | _ => none

/-- The `OPC` field, bits 7:0 of a command word (30_encoding.md R57). -/
def opcField (w : Word) : Byte := w.extractLsb' 0 8

/-- The reserved field, bits 31:8 of a command word (30_encoding.md R57). -/
def reservedField (w : Word) : BitVec 24 := w.extractLsb' 8 24

/-- The decoder: total on any word, rejecting by name. An illegal opcode wins over reserved bits
(30_encoding.md R60; 60_exceptions.md R156). -/
def decode (w : Word) : Except DecodeError Instr :=
  match instrOfOpcode (opcField w) with
  | none => .error .illegalOpcode
  | some i => if reservedField w = 0 then .ok i else .error .reservedBits

/-- `OPC` of each command (30_encoding.md R59). -/
def opcodeOf : Instr → Byte
  | .nop => 0x00
  | .wreg => 0x01
  | .rreg => 0x02
  | .rburst => 0x03
  | .wburst => 0x04
  | .strobe => 0x05
  | .reset => 0x10
  | .probe => 0x11
  | .configure => 0x12
  | .enterRx => 0x13
  | .init => 0x14
  | .diag => 0x15
  | .rssiDbm => 0x16
  | .freqWord => 0x17
  | .freqHz => 0x18
  | .crc16 => 0x20
  | .buildReq => 0x21
  | .encode => 0x22
  | .decode => 0x23
  | .sentchk => 0x24
  | .extract => 0x25
  | .startRead => 0x30
  | .tick => 0x31

/-- The encoder: `OPC` in bits 7:0, bits 31:8 zero (30_encoding.md R57). -/
def encode (i : Instr) : Word := (0#24 : BitVec 24) ++ opcodeOf i

/-- "Allowed during a session" (30_encoding.md R59, 60_exceptions.md R152). -/
def allowedInSession : Instr → Bool
  | .nop => true
  | .tick => true
  | .rssiDbm => true
  | .freqWord => true
  | .freqHz => true
  | .wreg => false
  | .rreg => false
  | .rburst => false
  | .wburst => false
  | .strobe => false
  | .reset => false
  | .probe => false
  | .configure => false
  | .enterRx => false
  | .init => false
  | .diag => false
  | .crc16 => false
  | .buildReq => false
  | .encode => false
  | .decode => false
  | .sentchk => false
  | .extract => false
  | .startRead => false

/-- The instruction the decoder reads from an instruction whose bits are `w`, of which the opcode table gives `nbits`:
one 32-bit command word (30_encoding.md R58), every bit above `nbits` zero. -/
def decodeTableWord (nbits w : Nat) : Option Instr :=
  if w % 2 ^ nbits < 2 ^ 32 then
    match decode (BitVec.ofNat 32 (w % 2 ^ nbits)) with
    | .ok i => some i
    | .error _ => none
  else none

end Sys2Proof
end

