-- ==== Sys2Proof/Config.lean ====
section
/-! DEFINITION. The OPEN implementation parameters of 00_scope.md R8, and the free values: what the transceiver answers,
the level of `DREADY`, how far the clock advances between readings, and one quotient the spec does not define. -/

namespace Sys2Proof

/-- `STROBE_CODE[0..6]`: the 6-bit chip command code of each strobe (00_scope.md R8, 30_encoding.md R65). -/
structure StrobeCodes where
  reset : ChipAddr
  flushRx : ChipAddr
  flushTx : ChipAddr
  idle : ChipAddr
  rx : ChipAddr
  tx : ChipAddr
  nop : ChipAddr
  deriving DecidableEq, Repr, Inhabited

/-- The parameters marked OPEN in 00_scope.md R8. They are fixed for one machine and differ between machines, so they
are an argument of the model: `State.params` holds them, no step writes them, and a claim about every state is a claim
about every value of them (log 7). -/
structure Params where
  /-- `OP_WRITE`, `OP_READ`, `OP_BURST`: the opcode bits of a transaction's header byte (30_encoding.md R64). -/
  opWrite : Byte
  opRead : Byte
  opBurst : Byte
  strobeCode : StrobeCodes
  /-- `ID_ADDR0`, `ID_ADDR1`: the two identity registers (41_rf_lifecycle.md R83). -/
  idAddr0 : ChipAddr
  idAddr1 : ChipAddr
  /-- `FREQ_ADDR[0..2]`: the top, mid and low frequency registers (41_rf_lifecycle.md R89). -/
  freqAddrTop : ChipAddr
  freqAddrMid : ChipAddr
  freqAddrLow : ChipAddr
  /-- `PA_ADDR`, `PA_MIN`: the transmit-power register and its minimal value (41_rf_lifecycle.md R89). -/
  paAddr : ChipAddr
  paMin : Byte
  marcAddr : ChipAddr
  txBytesAddr : ChipAddr
  rxBytesAddr : ChipAddr
  rssiAddr : ChipAddr
  lqiAddr : ChipAddr
  fifoAddr : ChipAddr
  /-- `FIFO_SIZE`: capacity in bytes of each FIFO, 16 to 256. -/
  fifoSize : Nat
  /-- `CNT_MASK`, `UF_MASK`: the count field and the underflow flag of the count registers. -/
  cntMask : Byte
  ufMask : Byte
  /-- `RX_STATES`, `TX_STATES`: the chip states that mean "in RX" and "in transmit". -/
  rxStates : List ChipState
  txStates : List ChipState
  cfgTable : List (ChipAddr × Byte)
  preambleSeq : List (ChipAddr × Byte)
  reqSeq : List (ChipAddr × Byte)
  defaultSeq : List (ChipAddr × Byte)
  ackRxSeq : List (ChipAddr × Byte)
  dataRxSeq : List (ChipAddr × Byte)
  wakeByte : Byte
  /-- `SYNC_PATTERN[0..8]` and `REQ_TEMPLATE[0..18]`, held in ROM space TMPL (20_memory.md R41). -/
  syncPattern : Vector Byte 9
  reqTemplate : Vector Byte 19
  deriving DecidableEq, Repr, Inhabited

/-- The parameters of the machine that `State.reset` describes: some value, about which nothing is known (log 7). -/
opaque Config.params : Params

/-- FREE VALUE: the byte the transceiver returns in the n-th byte slot that no pending answer of the state decides
(00_scope.md R7; 93_implementation_defined.md I2; log 4). -/
opaque Config.busByte : Nat → Byte

/-- FREE VALUE: the level of `DREADY` at the n-th sample that no pending level of the state decides
(00_scope.md R7; 93_implementation_defined.md I6; log 5). -/
opaque Config.dreadyLevel : Nat → Bool

/-- FREE VALUE: by how many milliseconds, modulo 2^32, `NOW_MS` advances before the n-th reading that no pending
advance of the state decides (10_state.md R25; 93_implementation_defined.md I8; log 6). -/
opaque Config.clockAdvance : Nat → Word

/-- FREE VALUE: `T_PREAMBLE div 0`, the preamble countdown's quotient when the latched `T_PACE` is 0
(00_scope.md R10 defines `div` for a positive divisor only; log 9). -/
opaque Config.paceQuotient : Word → Word

end Sys2Proof
end

