-- ==== Sys2Proof/Machine/State.lean ====
section
/-! DEFINITION. The state of the block and of the agents around it, as plain data (10_state.md, 20_memory.md), its faults
and refusals, and the state right after block reset (70_reset_and_hazards.md R171). -/

namespace Sys2Proof.Machine

/-! ## Codes -/

/-- Command error codes (60_exceptions.md R154). Codes 7 to 255 are never recorded. -/
inductive ErrCode where
  | none | illegalOpcode | reservedBits | busy | noChip | badOperand | range
  deriving DecidableEq, Repr

/-- Session failure codes (60_exceptions.md R159). Codes 8 to 255 are never recorded. -/
inductive FailCode where
  | none | txStreamTimeout | txDrainTimeout | sync2Timeout | fetch2Timeout | noSentinel | shortFrame | implausible
  deriving DecidableEq, Repr

/-- The states of a read session (10_state.md R36). Values 16 to 31 are never taken. -/
inductive SessState where
  | idle | startPreamble | streamPreamble | guardBeforeReq | startRequest | streamRequest | waitTxFinish
  | dataSetupStage1 | dataWaitSync1 | dataFetch1 | dataSetupStage2 | dataWaitSync2 | dataFetch2
  | decode | publish | fail
  deriving DecidableEq, Repr

/-! ## Control and status registers -/

/-- Four operand registers: `ARG0` to `ARG3` (10_state.md R20), or the engine's copies `cur_arg[0..3]` (R35). -/
structure Args where
  a0 : Word
  a1 : Word
  a2 : Word
  a3 : Word
  deriving DecidableEq, Repr

/-- The stored bits of `STATUS` (10_state.md R21). `BUSY` is the engine's `busy` and `SACT` is "the session state is not
Idle" (R35, R36); each is stored once and `statusWord` gives the register as the host reads it (log 16). -/
structure Status where
  done : Bool
  err : Bool
  sok : Bool
  sfail : Bool
  pub : Bool
  chip : Bool
  conf : Bool
  hflt : Bool
  errcode : ErrCode
  deriving DecidableEq, Repr

/-- The seven timing budgets in milliseconds: the CSRs `T_*` (10_state.md R28), or a session's latched copies (R37). -/
structure Budgets where
  ack : Word
  data : Word
  preamble : Word
  pace : Word
  guardTime : Word
  txStream : Word
  txDrain : Word
  deriving DecidableEq, Repr

/-- The reading registers `RD_LITERS`, `RD_FIELDS`, `RD_LINK`, `RD_VALID` field by field (10_state.md R33). -/
structure Reading where
  liters : Word
  reads : Byte
  batt : Byte
  hstart : Byte
  hend : Byte
  rssiRaw : Byte
  lqi : Byte
  rssiX2 : BitVec 16
  litV : Bool
  fldV : Bool
  linkV : Bool
  decLen : BitVec 16
  deriving DecidableEq, Repr

/-- `LEARN_WIN` (10_state.md R34). -/
structure LearnWin where
  hstart : Byte
  hend : Byte
  known : Bool
  deriving DecidableEq, Repr

/-- The control and status registers that have storage of their own (10_state.md R18). -/
structure Csrs where
  cmd : Word
  args : Args
  status : Status
  result0 : Word
  result1 : Word
  ien : Word
  meterId : Word
  freq : Word
  budgets : Budgets
  frameSize : BitVec 12
  freqWordCur : BitVec 24
  reading : Reading
  learn : LearnWin
  deriving DecidableEq, Repr

/-! ## Command engine -/

/-- One thing a running command has learned from outside itself: the bytes of a bus transaction, a clock reading, a
`DREADY` sample, or a CSR value read in the middle of the command. -/
inductive Reply where
  | bytes (bs : List Byte)
  | time (t : Word)
  | level (l : Bool)
  | word (w : Word)
  deriving DecidableEq, Repr

/-- The command engine (10_state.md R35). `replies`, oldest first, is "the command's internal progress": it tells which
bus transaction the command has reached and with what it goes on (log 3). -/
structure Engine where
  busy : Bool
  opc : Byte
  args : Args
  t0 : Word
  replies : List Reply
  deriving DecidableEq, Repr

/-! ## Read session -/

/-- The session's staging area "for the decoded result" (10_state.md R37). -/
structure Staging where
  liters : Word
  reads : Byte
  batt : Byte
  hstart : Byte
  hend : Byte
  rssiRaw : Byte
  lqi : Byte
  len : BitVec 16
  linkV : Bool
  deriving DecidableEq, Repr

/-- The read session (10_state.md R36, R37) with `SEQ.FAILCODE` (R31). -/
structure Session where
  state : SessState
  t0 : Word
  pub : Bool
  failcode : FailCode
  meterId : Word
  budgets : Budgets
  frameSize : BitVec 12
  reqLen : BitVec 16
  sent : BitVec 16
  target : BitVec 16
  recv : BitVec 16
  countdown : Word
  lastPace : Word
  stg : Staging
  deriving DecidableEq, Repr

/-! ## Buffers -/

/-- The bytes of TXB, RAWB, DECB, XB and PAYB by host address (20_memory.md R41): the bytes written since reset, at
strictly rising addresses. An unlisted byte has no value (R48; log 8). -/
abbrev Memory := List Host.Cell

/-! ## Host port and environment -/

/-- `HSIZE`: 0 = 8-bit access, 1 = 32-bit access (10_state.md R15). -/
inductive HSize where
  | byte | word
  deriving DecidableEq, Repr

/-- The control and status registers by name, at the offsets of 10_state.md R18. -/
inductive Csr where
  | cmd | arg0 | arg1 | arg2 | arg3 | status | result0 | result1 | ien | blkid | now
  | meterId | freq | tAck | tData | tPreamble | tPace | tGuard | tTxStream | tTxDrain
  | frameSize | freqWordCur | seq | seqT0 | seqTx | seqRx | seqPre | seqTPace
  | rdLiters | rdFields | rdLink | rdValid | learnWin
  deriving DecidableEq, Repr

/-- One host access: `HADDR`, `HSIZE`, `HWRITE`, `HWDATA` (10_state.md R15). -/
structure HostAccess where
  addr : HostAddr
  size : HSize
  write : Bool
  data : Word
  deriving DecidableEq, Repr

/-- What the host does next (log 1, log 2, log 23). -/
inductive HostEvent where
  /-- One access at the host port. -/
  | access (a : HostAccess)
  /-- The host does nothing in this step: the block has its turn. -/
  | pause
  /-- `WAIT` of 30_encoding.md R71: the block has its turns until the host sees `STATUS.BUSY` = 0. -/
  | wait
  /-- `TICKUNTIL S` of 30_encoding.md R71: `CALL TICK`, `RD32 SEQ`, again until `SEQ.STATE` = S. -/
  | tickUntil (target : SessState)
  /-- The test that ends one round of `TICKUNTIL S`. -/
  | untilState (target : SessState)
  /-- The level of `RST_N` changes (70_reset_and_hazards.md R170). -/
  | rstN (level : Bool)
  deriving DecidableEq, Repr

/-- The host port's outputs for the latest access, and the `RST_N` level (10_state.md R15). -/
structure Port where
  hrdata : Word
  herr : Bool
  rstN : Bool
  deriving DecidableEq, Repr

/-- The agents around the block (00_scope.md R6): what the host does next, what the transceiver and the clock answer
next, and the bus transactions made so far, oldest first. Where no pending answer is left the answer is a free value of
Config, at the number of answers drawn so far (log 4, log 5, log 6). -/
structure Env where
  host : List HostEvent
  busAnswers : List Byte
  busDrawn : Nat
  dreadyLevels : List Bool
  dreadyDrawn : Nat
  clockAdvances : List Word
  clockDrawn : Nat
  now : Word
  busLog : List (List Byte)
  deriving DecidableEq, Repr

/-! ## The state -/

/-- The whole machine. -/
structure State where
  params : Params
  csr : Csrs
  engine : Engine
  sess : Session
  mem : Memory
  port : Port
  env : Env
  deriving DecidableEq, Repr

/-- Where a step stops because the spec gives the machine no meaning. -/
inductive Fault where
  /-- READ_UNWRITTEN: a host read, or a command's read, of a buffer byte not written since reset (20_memory.md R48,
  60_exceptions.md R158). Raised by host reads and by `WBURST`, `CRC16`, `ENCODE`, `DECODE`, `SENTCHK`, `EXTRACT` and
  `TICK`. Safe: the hardware goes on with some value. -/
  | readUnwritten
  /-- A command would touch bytes past the end of a space (20_memory.md R41, R49). The acceptance checks rule it out,
  but for a `FRAME_SIZE` raised between the acceptance of `START_READ` and its latching step (log 10), and in states no
  run reaches. Safe: the model stops. -/
  | unmappedRange
  /-- The engine's recorded progress, or its opcode, fits no command: no run from reset reaches such a state (log 19).
  Safe: the model stops. -/
  | brokenProgress
  deriving DecidableEq, Repr

/-- Where a step has no meaning in the model. -/
inductive Refusal where
  /-- An instruction without a meaning. No arm of `exec` answers it: every row of the opcode table has its meaning.
  Safe: the model stops. -/
  | notModelled (mnemonic : String)
  deriving DecidableEq, Repr

/-! ## Reset -/

/-- Operand registers after reset (70_reset_and_hazards.md R171). -/
def Args.zero : Args := { a0 := 0, a1 := 0, a2 := 0, a3 := 0 }

/-- Timing budgets after reset (70_reset_and_hazards.md R171). -/
def Budgets.zero : Budgets :=
  { ack := 0, data := 0, preamble := 0, pace := 0, guardTime := 0, txStream := 0, txDrain := 0 }

/-- The staging area after reset, and after `START_READ` (70_reset_and_hazards.md R171, 45_read_sequencer.md R150). -/
def Staging.zero : Staging :=
  { liters := 0, reads := 0, batt := 0, hstart := 0, hend := 0, rssiRaw := 0, lqi := 0, len := 0, linkV := false }

/-- The CSRs after block reset (70_reset_and_hazards.md R171). -/
def Csrs.reset : Csrs :=
  { cmd := 0, args := .zero
    status := { done := false, err := false, sok := false, sfail := false, pub := false, chip := false, conf := false,
                hflt := false, errcode := .none }
    result0 := 0, result1 := 0, ien := 0, meterId := 0, freq := 0, budgets := .zero, frameSize := 0, freqWordCur := 0
    reading := { liters := 0, reads := 0, batt := 0, hstart := 0, hend := 0, rssiRaw := 0, lqi := 0, rssiX2 := 0,
                 litV := false, fldV := false, linkV := false, decLen := 0 }
    learn := { hstart := 0xFF, hend := 0xFF, known := false } }

/-- The command engine after block reset: idle (70_reset_and_hazards.md R171). -/
def Engine.reset : Engine := { busy := false, opc := 0, args := .zero, t0 := 0, replies := [] }

/-- The session after block reset (70_reset_and_hazards.md R171). -/
def Session.reset : Session :=
  { state := .idle, t0 := 0, pub := false, failcode := .none, meterId := 0, budgets := .zero, frameSize := 0
    reqLen := 0, sent := 0, target := 0, recv := 0, countdown := 0, lastPace := 0, stg := .zero }

/-- The environment before anything has happened: nothing pending, nothing drawn (log 1, log 4, log 5, log 6). -/
def Env.initial : Env :=
  { host := [], busAnswers := [], busDrawn := 0, dreadyLevels := [], dreadyDrawn := 0, clockAdvances := [],
    clockDrawn := 0, now := 0, busLog := [] }

/-- The machine right after block reset (70_reset_and_hazards.md R171): `RST_N` is 1 again, no buffer byte is written,
and the block waits for a host access. -/
def State.reset : State :=
  { params := Config.params, csr := .reset, engine := .reset, sess := .reset, mem := []
    port := { hrdata := 0, herr := false, rstN := true }, env := .initial }

end Sys2Proof.Machine
end

