-- ==== Sys2Proof/Machine/Flags.lean ====
section
/-! DEFINITION. The block's flags and every register the host reads as a word: code numbers (60_exceptions.md R154,
R159; 10_state.md R36), the register views of 10_state.md R21 to R34, and the interrupt output (60_exceptions.md R162).
The block has no arithmetic condition codes (10_state.md R39). -/

namespace Sys2Proof.Machine

/-- A bit string of one bit. -/
def bit (b : Bool) : BitVec 1 := BitVec.ofBool b

/-- Error code numbers (60_exceptions.md R154). -/
def errNumber : ErrCode → Byte
  | .none => 0
  | .illegalOpcode => 1
  | .reservedBits => 2
  | .busy => 3
  | .noChip => 4
  | .badOperand => 5
  | .range => 6

/-- Failure code numbers (60_exceptions.md R159). -/
def failNumber : FailCode → Byte
  | .none => 0
  | .txStreamTimeout => 1
  | .txDrainTimeout => 2
  | .sync2Timeout => 3
  | .fetch2Timeout => 4
  | .noSentinel => 5
  | .shortFrame => 6
  | .implausible => 7

/-- Session state numbers (10_state.md R36). -/
def sessNumber : SessState → BitVec 5
  | .idle => 0
  | .startPreamble => 1
  | .streamPreamble => 2
  | .guardBeforeReq => 3
  | .startRequest => 4
  | .streamRequest => 5
  | .waitTxFinish => 6
  | .dataSetupStage1 => 7
  | .dataWaitSync1 => 8
  | .dataFetch1 => 9
  | .dataSetupStage2 => 10
  | .dataWaitSync2 => 11
  | .dataFetch2 => 12
  | .decode => 13
  | .publish => 14
  | .fail => 15

/-- `STATUS.SACT`: a session is active exactly when `sess.state` is not Idle (10_state.md R36). -/
def State.sact (s : State) : Bool := decide (s.sess.state ≠ .idle)

/-- `STATUS` as the host reads it (10_state.md R21): bits 15:10 and 31:24 read 0. -/
def State.statusWord (s : State) : Word :=
  let st := s.csr.status
  0#8 ++ errNumber st.errcode ++ 0#6 ++ bit st.hflt ++ bit st.conf ++ bit st.chip ++ bit st.pub ++ bit st.sfail ++
    bit st.sok ++ bit s.sact ++ bit st.err ++ bit st.done ++ bit s.engine.busy

/-- The bits of `IEN` that have storage: 1, 2, 4, 5, 6, 9 (10_state.md R23). -/
def ienMask : Word := 0x00000276

/-- The W1C bits of `STATUS` (10_state.md R21) stand at the same positions as the enables of `IEN` (R23). -/
def w1cMask : Word := 0x00000276

/-- `IRQ`: the OR over the six interrupt sources of `STATUS` bit AND `IEN` bit (60_exceptions.md R162). -/
def State.irq (s : State) : Bool := decide (s.statusWord &&& s.csr.ien &&& ienMask ≠ 0)

/-- `CS_N` between steps: chip-select is released outside a bus transaction, and a transaction lies inside one block
step (40_bus_access.md R72; log 11). -/
def State.csN (_ : State) : Bool := true

/-- `BLKID` (10_state.md R24). -/
def blkid : Word := 0x52410007

/-- `SEQ` (10_state.md R31). -/
def seqWord (x : Session) : Word :=
  0#8 ++ failNumber x.failcode ++ 0#7 ++ bit x.pub ++ 0#3 ++ sessNumber x.state

/-- `SEQ_TX`: `sess.req_len` in the high half, `sess.sent` in the low half (10_state.md R32). -/
def seqTxWord (x : Session) : Word := x.reqLen ++ x.sent

/-- `SEQ_RX`: `sess.target` in the high half, `sess.recv` in the low half (10_state.md R32). -/
def seqRxWord (x : Session) : Word := x.target ++ x.recv

/-- `RD_FIELDS` (10_state.md R33). -/
def rdFieldsWord (r : Reading) : Word := r.hend ++ r.hstart ++ r.batt ++ r.reads

/-- `RD_LINK` (10_state.md R33). -/
def rdLinkWord (r : Reading) : Word := r.rssiX2 ++ r.lqi ++ r.rssiRaw

/-- `RD_VALID` (10_state.md R33). -/
def rdValidWord (r : Reading) : Word := r.decLen ++ 0#13 ++ bit r.linkV ++ bit r.fldV ++ bit r.litV

/-- `LEARN_WIN` (10_state.md R34). -/
def learnWord (l : LearnWin) : Word := 0#15 ++ bit l.known ++ l.hend ++ l.hstart

/-- A CSR as the host reads it (10_state.md R19 to R34). `NOW` is the present level of the `NOW_MS` input. -/
def readCsr (s : State) : Csr → Word
  | .cmd => s.csr.cmd
  | .arg0 => s.csr.args.a0
  | .arg1 => s.csr.args.a1
  | .arg2 => s.csr.args.a2
  | .arg3 => s.csr.args.a3
  | .status => s.statusWord
  | .result0 => s.csr.result0
  | .result1 => s.csr.result1
  | .ien => s.csr.ien
  | .blkid => blkid
  | .now => s.env.now
  | .meterId => s.csr.meterId
  | .freq => s.csr.freq
  | .tAck => s.csr.budgets.ack
  | .tData => s.csr.budgets.data
  | .tPreamble => s.csr.budgets.preamble
  | .tPace => s.csr.budgets.pace
  | .tGuard => s.csr.budgets.guardTime
  | .tTxStream => s.csr.budgets.txStream
  | .tTxDrain => s.csr.budgets.txDrain
  | .frameSize => s.csr.frameSize.setWidth 32
  | .freqWordCur => s.csr.freqWordCur.setWidth 32
  | .seq => seqWord s.sess
  | .seqT0 => s.sess.t0
  | .seqTx => seqTxWord s.sess
  | .seqRx => seqRxWord s.sess
  | .seqPre => s.sess.countdown
  | .seqTPace => s.sess.lastPace
  | .rdLiters => s.csr.reading.liters
  | .rdFields => rdFieldsWord s.csr.reading
  | .rdLink => rdLinkWord s.csr.reading
  | .rdValid => rdValidWord s.csr.reading
  | .learnWin => learnWord s.csr.learn

/-- A host write of `STATUS`: a 1 in a W1C bit clears it, and a 1 in bit 2 also clears `ERRCODE`
(10_state.md R21, 20_memory.md R46). -/
def clearStatus (w : Word) (st : Status) : Status :=
  { done := st.done && !w.getLsbD 1
    err := st.err && !w.getLsbD 2
    sok := st.sok && !w.getLsbD 4
    sfail := st.sfail && !w.getLsbD 5
    pub := st.pub && !w.getLsbD 6
    chip := st.chip
    conf := st.conf
    hflt := st.hflt && !w.getLsbD 9
    errcode := if w.getLsbD 2 then .none else st.errcode }

/-- The storage of a host write to a CSR: RW fields take the value, W1C bits are cleared, RO and RAZ/WI bits ignore the
write (20_memory.md R46). What a write of `CMD` starts is not here (60_exceptions.md R152). -/
def writeCsr (w : Word) (c : Csrs) : Csr → Csrs
  | .cmd => { c with cmd := w }
  | .arg0 => { c with args := { c.args with a0 := w } }
  | .arg1 => { c with args := { c.args with a1 := w } }
  | .arg2 => { c with args := { c.args with a2 := w } }
  | .arg3 => { c with args := { c.args with a3 := w } }
  | .status => { c with status := clearStatus w c.status }
  | .ien => { c with ien := w &&& ienMask }
  | .meterId => { c with meterId := w }
  | .freq => { c with freq := w }
  | .tAck => { c with budgets := { c.budgets with ack := w } }
  | .tData => { c with budgets := { c.budgets with data := w } }
  | .tPreamble => { c with budgets := { c.budgets with preamble := w } }
  | .tPace => { c with budgets := { c.budgets with pace := w } }
  | .tGuard => { c with budgets := { c.budgets with guardTime := w } }
  | .tTxStream => { c with budgets := { c.budgets with txStream := w } }
  | .tTxDrain => { c with budgets := { c.budgets with txDrain := w } }
  | .frameSize => { c with frameSize := w.extractLsb' 0 12 }
  | .result0 => c
  | .result1 => c
  | .blkid => c
  | .now => c
  | .freqWordCur => c
  | .seq => c
  | .seqT0 => c
  | .seqTx => c
  | .seqRx => c
  | .seqPre => c
  | .seqTPace => c
  | .rdLiters => c
  | .rdFields => c
  | .rdLink => c
  | .rdValid => c
  | .learnWin => c

/-- The CSR at an offset of host space 0; every other offset is unmapped (10_state.md R18). -/
def csrAt (off : Nat) : Option Csr :=
  match off with
  | 0x000 => some .cmd
  | 0x004 => some .arg0
  | 0x008 => some .arg1
  | 0x00C => some .arg2
  | 0x010 => some .arg3
  | 0x014 => some .status
  | 0x018 => some .result0
  | 0x01C => some .result1
  | 0x020 => some .ien
  | 0x024 => some .blkid
  | 0x028 => some .now
  | 0x030 => some .meterId
  | 0x034 => some .freq
  | 0x038 => some .tAck
  | 0x03C => some .tData
  | 0x040 => some .tPreamble
  | 0x044 => some .tPace
  | 0x048 => some .tGuard
  | 0x04C => some .tTxStream
  | 0x050 => some .tTxDrain
  | 0x054 => some .frameSize
  | 0x058 => some .freqWordCur
  | 0x060 => some .seq
  | 0x064 => some .seqT0
  | 0x068 => some .seqTx
  | 0x06C => some .seqRx
  | 0x070 => some .seqPre
  | 0x074 => some .seqTPace
  | 0x080 => some .rdLiters
  | 0x084 => some .rdFields
  | 0x088 => some .rdLink
  | 0x08C => some .rdValid
  | 0x090 => some .learnWin
  | _ => none

end Sys2Proof.Machine
end

