-- ==== Sys2Proof/Machine/Operands.lean ====
section
/-! DEFINITION. The operand kinds of 30_encoding.md R61 and R62, buffer ranges (20_memory.md R41, R49), transceiver
header bytes (30_encoding.md R64), and the order of operand checks (60_exceptions.md R156). -/

namespace Sys2Proof.Machine

/-! ## Operand kinds (30_encoding.md R62) -/

/-- Every bit of an operand above its field of `n` bits is 0. -/
def fits (n : Nat) (w : Word) : Bool := decide (w.toNat < 2 ^ n)

/-- `ADDR6`: the address is bits 5:0, bits 31:6 are reserved. -/
def addr6 (w : Word) : ChipAddr := w.extractLsb' 0 6

/-- The reserved bits of an `ADDR6` operand are 0. -/
def addr6Ok (w : Word) : Bool := fits 6 w

/-- `BYTE`: bits 7:0, bits 31:8 are reserved. -/
def byteOf (w : Word) : Byte := w.extractLsb' 0 8

/-- The reserved bits of a `BYTE` operand are 0. -/
def byteOk (w : Word) : Bool := fits 8 w

/-- `FLAG`: bit 0, bits 31:1 are reserved. -/
def flagOf (w : Word) : Bool := w.getLsbD 0

/-- The reserved bits of a `FLAG` operand are 0. -/
def flagOk (w : Word) : Bool := fits 1 w

/-- `WORD24`: bits 23:0, bits 31:24 are reserved. -/
def word24Of (w : Word) : BitVec 24 := w.extractLsb' 0 24

/-- The reserved bits of a `WORD24` operand are 0. -/
def word24Ok (w : Word) : Bool := fits 24 w

/-- `U32`: the whole operand, a count, an index or a frequency. -/
abbrev u32Of (w : Word) : Nat := w.toNat

/-- `BREF`: the host address in bits 15:0 (30_encoding.md R61). -/
def brefOf (w : Word) : HostAddr := w.extractLsb' 0 16

/-- The reserved bits 31:16 of a `BREF` operand are 0. -/
def brefOk (w : Word) : Bool := fits 16 w

/-! ## Buffer ranges -/

/-- `a[15:12]`, the space of a host address (20_memory.md R43). -/
def spaceOf (a : HostAddr) : Nat := a.toNat / 4096

/-- `a[11:0]`, the offset of a host address in its space (20_memory.md R43). -/
def offsetOf (a : HostAddr) : Nat := a.toNat % 4096

/-- The size in bytes of spaces 1 to 7; no other space holds bytes (20_memory.md R41). -/
def spaceSize (space : Nat) : Nat :=
  match space with
  | 1 => 64
  | 2 => 4096
  | 3 => 1024
  | 4 => 256
  | 5 => 32
  | 6 => 512
  | 7 => 28
  | _ => 0

/-- `ReadableRange(addr, n)`: space in 1..7 and offset + n within its size (20_memory.md R49). -/
def readableRange (a : HostAddr) (n : Nat) : Bool :=
  decide (1 ≤ spaceOf a ∧ spaceOf a ≤ 7 ∧ offsetOf a + n ≤ spaceSize (spaceOf a))

/-- `WritableRange(addr, n)`: readable, and space in 1..5 (20_memory.md R49). -/
def writableRange (a : HostAddr) (n : Nat) : Bool :=
  readableRange a n && decide (spaceOf a ≤ 5)

/-- The first bytes of the buffers the commands name: TXB, RAWB, DECB, XB, PAYB (20_memory.md R41). -/
def txb : HostAddr := 0x1000
/-- RAWB. -/
def rawb : HostAddr := 0x2000
/-- DECB. -/
def decb : HostAddr := 0x3000
/-- XB. -/
def xb : HostAddr := 0x4000
/-- PAYB. -/
def payb : HostAddr := 0x5000

/-! ## Transceiver bus headers (30_encoding.md R64) -/

/-- `IsStatus(a)`: 0x30 ≤ a ≤ 0x3D (40_bus_access.md R74). -/
def isStatus (a : ChipAddr) : Bool := decide (0x30 ≤ a.toNat ∧ a.toNat ≤ 0x3D)

/-- The header byte: a 6-bit address or code OR'd with opcode bits. -/
def header (a : ChipAddr) (opcodeBits : Byte) : Byte := a.setWidth 8 ||| opcodeBits

/-- Single write: `[a OR OP_WRITE, value]`. -/
def singleWrite (p : Params) (a : ChipAddr) (v : Byte) : List Byte := [header a p.opWrite, v]

/-- Single read: burst mode is required in the status sub-range (40_bus_access.md R75). The dummy byte is 0x00. -/
def singleRead (p : Params) (a : ChipAddr) : List Byte :=
  if isStatus a then [header a (p.opRead ||| p.opBurst), 0] else [header a p.opRead, 0]

/-- Burst read of n bytes: the header, then n dummy bytes. -/
def burstRead (p : Params) (a : ChipAddr) (n : Nat) : List Byte :=
  header a (p.opRead ||| p.opBurst) :: List.replicate n 0

/-- Burst write: the header, then the data. -/
def burstWrite (p : Params) (a : ChipAddr) (data : List Byte) : List Byte :=
  header a (p.opWrite ||| p.opBurst) :: data

/-- The chip code of a strobe (30_encoding.md R65). -/
def strobeCode (c : StrobeCodes) : Strobe → ChipAddr
  | .reset => c.reset
  | .flushRx => c.flushRx
  | .flushTx => c.flushTx
  | .idle => c.idle
  | .rx => c.rx
  | .tx => c.tx
  | .nop => c.nop

/-- Strobe: the single byte `STROBE_CODE[k] OR OP_WRITE`. -/
def strobeTxn (p : Params) (k : Strobe) : List Byte := [header (strobeCode p.strobeCode k) p.opWrite]

/-- The strobe index 0..6 (30_encoding.md R65). -/
def strobeOfIndex (k : Nat) : Option Strobe :=
  match k with
  | 0 => some .reset
  | 1 => some .flushRx
  | 2 => some .flushTx
  | 3 => some .idle
  | 4 => some .rx
  | 5 => some .tx
  | 6 => some .nop
  | _ => none

/-! ## Checks -/

/-- The code of the first check that is violated, in the order listed (60_exceptions.md R156). -/
def firstError : List (Bool × ErrCode) → Option ErrCode
  | [] => none
  | (violated, code) :: rest => if violated then some code else firstError rest

end Sys2Proof.Machine
end

