-- ==== Sys2Proof/Machine/Ops.lean ====
section
/-! DEFINITION. The named operations over the state: buffer memory (20_memory.md), the environment's answers
(00_scope.md R7, R13), refusal, host fault and session failure (60_exceptions.md R155, R157, R160) with the return to
Idle (45_read_sequencer.md R129), and the command engine: acceptance, block steps, completion (60_exceptions.md R152,
R153). -/

namespace Sys2Proof.Machine

/-! ## Buffer memory -/

/-- The byte listed at an address, if it was written since reset (20_memory.md R48). -/
def Memory.read : Memory → Nat → Option Byte
  | [], _ => none
  | (k, b) :: rest, a => if k = a then some b else Memory.read rest a

/-- Consecutive cells holding the bytes from an address on. -/
def cellsAt : Nat → List Byte → Memory
  | _, [] => []
  | a, b :: bs => (a, b) :: cellsAt (a + 1) bs

/-- `MemWrite(addr, n, v)` (00_scope.md R12): the cells of the range are replaced, the others stay. -/
def Memory.write (m : Memory) (a : Nat) (bs : List Byte) : Memory :=
  m.filter (fun c => decide (c.1 < a)) ++ (cellsAt a bs ++ m.filter (fun c => decide (a + bs.length ≤ c.1)))

/-- The address lies in one of the writable buffers TXB, RAWB, DECB, XB, PAYB (20_memory.md R41). -/
def bufferAddr (a : Nat) : Bool :=
  decide (1 ≤ a / 4096 ∧ a / 4096 ≤ 5 ∧ a % 4096 < spaceSize (a / 4096))

/-- The canonical form: addresses strictly rising, each in a writable buffer. -/
abbrev Memory.wf (m : Memory) : Prop :=
  m.Pairwise (fun x y => x.1 < y.1) ∧ ∀ c ∈ m, bufferAddr c.1 = true

/-- The byte at an offset of TMPL: `SYNC_PATTERN` at 0..8, `REQ_TEMPLATE` at 9..27 (20_memory.md R41). -/
def tmplByte (p : Params) (off : Nat) : Option Byte := (p.syncPattern.toList ++ p.reqTemplate.toList)[off]?

/-- The byte at a host address of spaces 1 to 7: a buffer byte if it was written since reset, a ROM byte always
(20_memory.md R41, R48). No value for any other address. -/
def State.readByte (s : State) (a : HostAddr) : Option Byte :=
  if offsetOf a < spaceSize (spaceOf a) then
    if spaceOf a = 6 then some (crctByte (offsetOf a))
    else if spaceOf a = 7 then tmplByte s.params (offsetOf a)
    else s.mem.read a.toNat
  else none

/-- `MemRead(addr, n)` (00_scope.md R12): every byte of the range, if each has a value. -/
def State.readBytes (s : State) (a : HostAddr) : Nat → Option (List Byte)
  | 0 => some []
  | n + 1 =>
    match State.readBytes s a n, s.readByte (a + BitVec.ofNat 16 n) with
    | some bs, some b => some (bs ++ [b])
    | _, _ => none

/-- `MemWrite` on the state. -/
def State.writeBytes (s : State) (a : HostAddr) (bs : List Byte) : State :=
  { s with mem := s.mem.write a.toNat bs }

/-! ## What the agents around the block answer -/

/-- One byte from the transceiver: the next pending answer, else a free value (00_scope.md R7; log 4). -/
def Env.drawByte (e : Env) : Byte × Env :=
  match e.busAnswers with
  | b :: rest => (b, { e with busAnswers := rest, busDrawn := e.busDrawn + 1 })
  | [] => (Config.busByte e.busDrawn, { e with busDrawn := e.busDrawn + 1 })

/-- `n` bytes from the transceiver, in slot order. -/
def Env.drawBytes : Nat → Env → List Byte × Env
  | 0, e => ([], e)
  | n + 1, e =>
    let r := e.drawByte
    let rs := Env.drawBytes n r.2
    (r.1 :: rs.1, rs.2)

/-- `DReady()`: the next pending level, else a free value (00_scope.md R13; log 5). -/
def Env.drawLevel (e : Env) : Bool × Env :=
  match e.dreadyLevels with
  | l :: rest => (l, { e with dreadyLevels := rest, dreadyDrawn := e.dreadyDrawn + 1 })
  | [] => (Config.dreadyLevel e.dreadyDrawn, { e with dreadyDrawn := e.dreadyDrawn + 1 })

/-- The clock moves on before a reading, by the next pending advance, else by a free one; the reading is the new value
(10_state.md R25, 60_exceptions.md R165; log 6). -/
def Env.tickClock (e : Env) : Env :=
  match e.clockAdvances with
  | d :: rest => { e with clockAdvances := rest, clockDrawn := e.clockDrawn + 1, now := e.now + d }
  | [] => { e with clockDrawn := e.clockDrawn + 1, now := e.now + Config.clockAdvance e.clockDrawn }

/-- `Now()`: a reading of `NOW_MS` (00_scope.md R13). -/
def Env.readClock (e : Env) : Word × Env := (e.tickClock.now, e.tickClock)

/-- `BusTxn(out)` (40_bus_access.md R72): the bytes go to the transceiver, which answers one byte for each. -/
def State.busTxn (s : State) (out : List Byte) : List Byte × State :=
  let r := s.env.drawBytes out.length
  (r.1, { s with env := { r.2 with busLog := r.2.busLog ++ [out] } })

/-- `Elapsed(t, now)` = (now − t) mod 2^32 (45_read_sequencer.md R129). -/
def elapsed (t now : Word) : Nat := (now - t).toNat

/-! ## Register and flag updates -/

/-- `csr[RESULT0] <- w`. -/
def State.setResult0 (s : State) (w : Word) : State := { s with csr := { s.csr with result0 := w } }

/-- `csr[RESULT1] <- w`. -/
def State.setResult1 (s : State) (w : Word) : State := { s with csr := { s.csr with result1 := w } }

/-- An update of the stored `STATUS` bits. -/
def State.mapStatus (s : State) (f : Status → Status) : State :=
  { s with csr := { s.csr with status := f s.csr.status } }

/-- `csr[STATUS.CONF] <- b`. -/
def State.setConf (s : State) (b : Bool) : State := s.mapStatus fun st => { st with conf := b }

/-- `csr[STATUS.CHIP] <- b`. -/
def State.setChip (s : State) (b : Bool) : State := s.mapStatus fun st => { st with chip := b }

/-- An update of the session. -/
def State.mapSess (s : State) (f : Session → Session) : State := { s with sess := f s.sess }

/-- An update of the reading registers. -/
def State.mapReading (s : State) (f : Reading → Reading) : State :=
  { s with csr := { s.csr with reading := f s.csr.reading } }

/-- The host port's answer to the present access (10_state.md R15). -/
def State.respond (s : State) (data : Word) (err : Bool) : State :=
  { s with port := { s.port with hrdata := data, herr := err } }

/-! ## Taking an exception

The block has no trap (60_exceptions.md R161). Its three abnormal events each have one operation. -/

/-- The effects of a refusal, and nothing else (60_exceptions.md R155). -/
def State.refuse (s : State) (code : ErrCode) : State :=
  s.mapStatus fun st => { st with done := true, err := true, errcode := code }

/-- A `CMD` write dropped because a command is running: `ERR` and `ERRCODE` only (60_exceptions.md R155). -/
def State.dropBusy (s : State) : State :=
  s.mapStatus fun st => { st with err := true, errcode := .busy }

/-- A host fault: `HFLT` ← 1 and `HERR` (60_exceptions.md R157). -/
def State.hostFault (s : State) : State :=
  { s.mapStatus (fun st => { st with hflt := true }) with port := { s.port with herr := true } }

/-- A faulting read also returns 0 (60_exceptions.md R157). -/
def State.hostReadFault (s : State) : State :=
  { s.hostFault with port := { s.hostFault.port with hrdata := 0 } }

/-- `Goto(S2, now)` (45_read_sequencer.md R129): the transition sets the state-entry time. `STATUS.SACT` is "the state
is not Idle", so a transition to Idle, which ends a session or a failure's handling (60_exceptions.md R160), clears it. -/
def State.goto (s : State) (next : SessState) (now : Word) : State :=
  s.mapSess fun x => { x with state := next, t0 := now }

/-- A session failure's entry: `SEQ.FAILCODE` ← code and the transition to Fail (45_read_sequencer.md R129,
60_exceptions.md R160). -/
def State.failSession (s : State) (code : FailCode) (now : Word) : State :=
  (s.mapSess fun x => { x with failcode := code }).goto .fail now

/-! ## Command programs -/

/-- What an accepted command does, as the block sees it: it computes, makes bus transactions, reads the clock, samples
`DREADY` or reads a CSR, and goes on with what it got. Not part of the state: the state holds the replies got so far,
and a command's program with those replies gives the block step to make next (log 3). -/
inductive Prog where
  /-- The last effect: the command completes with it. -/
  | done (fx : State → State)
  /-- A model fault. -/
  | stop (f : Fault)
  /-- `BusTxn(out)`. -/
  | bus (out : List Byte) (k : List Byte → Prog)
  /-- `Now()`. -/
  | clock (k : Word → Prog)
  /-- `DReady()`. -/
  | level (k : Bool → Prog)
  /-- A CSR value read in the middle of the command. -/
  | csr (f : Csrs → Word) (k : Word → Prog)
  /-- One pass of a polling loop is over: forget all but the first `keep` replies, so that the next block step begins
  another pass. -/
  | again (keep : Nat)

/-- The program that is left after some replies; none if a reply does not fit. -/
def Prog.resume : Prog → List Reply → Option Prog
  | p, [] => some p
  | .bus _ k, .bytes bs :: rest => (k bs).resume rest
  | .clock k, .time t :: rest => (k t).resume rest
  | .level k, .level l :: rest => (k l).resume rest
  | .csr _ k, .word w :: rest => (k w).resume rest
  | _, _ :: _ => none

/-- The engine remembers a reply. -/
def State.record (s : State) (r : Reply) : State :=
  { s with engine := { s.engine with replies := s.engine.replies ++ [r] } }

/-- The engine forgets all but the first replies. -/
def State.keepReplies (s : State) (n : Nat) : State :=
  { s with engine := { s.engine with replies := s.engine.replies.take n } }

/-- Completion of an accepted command (60_exceptions.md R153): `busy` ← 0, `DONE` ← 1; `ERR` and `ERRCODE` stay. -/
def State.complete (s : State) : State :=
  { s.mapStatus (fun st => { st with done := true }) with
    engine := { s.engine with busy := false, replies := [] } }

/-- One block step of a command: at most one bus transaction (`bus` says whether it may still make it), with the
computations, clock readings and samples around it; the step that performs the last effect completes the command
(00_scope.md R6, 60_exceptions.md R152, R153; log 3). -/
def Prog.drive : Prog → Bool → State → Host.Outcome State Fault Refusal
  | .done fx, _, s => .next (fx s).complete
  | .stop f, _, _ => .fault f
  | .bus out k, true, s => (k (s.busTxn out).1).drive false ((s.busTxn out).2.record (.bytes (s.busTxn out).1))
  | .bus _ _, false, s => .next s
  | .clock k, b, s =>
    (k s.env.readClock.1).drive b (State.record { s with env := s.env.readClock.2 } (.time s.env.readClock.1))
  | .level k, b, s =>
    (k s.env.drawLevel.1).drive b (State.record { s with env := s.env.drawLevel.2 } (.level s.env.drawLevel.1))
  | .csr f k, b, s => (k (f s.csr)).drive b (s.record (.word (f s.csr)))
  | .again n, _, s => .next (s.keepReplies n)

/-- Acceptance (60_exceptions.md R152): `busy` ← 1, the opcode and the four operand registers are latched, and the clock
is read into `cmd_t0`. -/
def State.accept (s : State) (i : Instr) : State :=
  { s with
    engine := { busy := true, opc := opcodeOf i, args := s.csr.args, t0 := s.env.readClock.1, replies := [] }
    env := s.env.readClock.2 }

/-- The acceptance checks that are left once the word is decoded, in the order of 60_exceptions.md R156: session
exclusion, then the command's own checks; then acceptance (R152). -/
def State.submit (s : State) (i : Instr) (check : Option ErrCode) : State :=
  if s.sact && !allowedInSession i then s.refuse .busy
  else match check with
    | some code => s.refuse code
    | none => s.accept i

/-- A command's part of a step. With the engine idle it is submitted: checked on the `ARGk` registers and refused or
accepted. With the engine busy it makes its next block step, whose program reads the latched operands
(60_exceptions.md R152, R153). -/
def runCommand (i : Instr) (check : State → Option ErrCode) (prog : State → Prog) (s : State) :
    Host.Outcome State Fault Refusal :=
  if s.engine.busy then
    match (prog s).resume s.engine.replies with
    | some p => p.drive true s
    | none => .fault .brokenProgress
  else .next (s.submit i (check s))

/-- No check of its own. -/
def noCheck (_ : State) : Option ErrCode := none

/-! ## Buffer accesses and bus procedures of a program -/

/-- `MemRead(addr, n)` of a program: a byte without a value is the model fault READ_UNWRITTEN (20_memory.md R48), a
range outside its space is no read the spec knows (R49; log 10). -/
def readRange (s : State) (a : HostAddr) (n : Nat) (k : List Byte → Prog) : Prog :=
  if readableRange a n then
    match s.readBytes a n with
    | some bs => k bs
    | none => .stop .readUnwritten
  else .stop .unmappedRange

/-- The guard of a `MemWrite` of n bytes: the range lies in a writable space (20_memory.md R49; log 10). -/
def guardWrite (a : HostAddr) (n : Nat) (k : Prog) : Prog :=
  if writableRange a n then k else .stop .unmappedRange

/-- `WriteReg(a, v)` (40_bus_access.md R75). -/
def writeReg (p : Params) (a : ChipAddr) (v : Byte) (k : Prog) : Prog := .bus (singleWrite p a v) fun _ => k

/-- `in[1]` of a transaction of two bytes (40_bus_access.md R75). -/
def secondByte (ins : List Byte) (k : Byte → Prog) : Prog :=
  match ins with
  | _ :: v :: _ => k v
  | _ => .stop .brokenProgress

/-- `ReadReg(a)` (40_bus_access.md R75). -/
def readReg (p : Params) (a : ChipAddr) (k : Byte → Prog) : Prog :=
  .bus (singleRead p a) fun ins => secondByte ins k

/-- `ReadBurst(a, n)`: `in[1..n]` (40_bus_access.md R75). -/
def readBurst (p : Params) (a : ChipAddr) (n : Nat) (k : List Byte → Prog) : Prog :=
  .bus (burstRead p a n) fun ins => if ins.length = n + 1 then k (ins.drop 1) else .stop .brokenProgress

/-- `WriteBurst(a, bytes)` (40_bus_access.md R75). -/
def writeBurst (p : Params) (a : ChipAddr) (data : List Byte) (k : Prog) : Prog := .bus (burstWrite p a data) fun _ => k

/-- `Strobe(k)` (40_bus_access.md R75). -/
def strobe (p : Params) (c : Strobe) (k : Prog) : Prog := .bus (strobeTxn p c) fun _ => k

/-- `ApplySeq(seq)` (40_bus_access.md R75): one `WriteReg` for each pair, in list order. -/
def applySeq (p : Params) : List (ChipAddr × Byte) → Prog → Prog
  | [], k => k
  | (a, v) :: rest, k => writeReg p a v (applySeq p rest k)

end Sys2Proof.Machine
end

