-- ==== Sys2Proof/Machine/BusAccess.lean ====
section
/-! DEFINITION. The bus access commands `WREG`, `RREG`, `RBURST`, `WBURST`, `STROBE` (40_bus_access.md R77 to R81). -/

namespace Sys2Proof.Machine

/-! ## WREG -/

/-- Checks of `WREG` (R77). -/
def wregCheck (s : State) : Option ErrCode :=
  let a := s.csr.args
  firstError [(!addr6Ok a.a0 || !byteOk a.a1, .badOperand), (isStatus (addr6 a.a0), .badOperand)]

/-- `WREG` (R77): one register write. -/
def wregProg (s : State) : Prog :=
  writeReg s.params (addr6 s.engine.args.a0) (byteOf s.engine.args.a1) (.done id)

/-- `WREG addr, value` (40_bus_access.md R77). -/
def execWreg (s : State) : Host.Outcome State Fault Refusal := runCommand .wreg wregCheck wregProg s

/-! ## RREG -/

/-- Checks of `RREG` (R78). -/
def rregCheck (s : State) : Option ErrCode := firstError [(!addr6Ok s.csr.args.a0, .badOperand)]

/-- `RREG` (R78): one register read into `RESULT0`. -/
def rregProg (s : State) : Prog :=
  readReg s.params (addr6 s.engine.args.a0) fun v => .done fun t => t.setResult0 (v.setWidth 32)

/-- `RREG addr` (40_bus_access.md R78). -/
def execRreg (s : State) : Host.Outcome State Fault Refusal := runCommand .rreg rregCheck rregProg s

/-! ## RBURST -/

/-- Checks of `RBURST` (R79). -/
def rburstCheck (s : State) : Option ErrCode :=
  let a := s.csr.args
  let n := u32Of a.a1
  firstError [(!addr6Ok a.a0, .badOperand), (isStatus (addr6 a.a0) && decide (1 < n), .badOperand),
    (decide (n = 0 ∨ 256 < n), .range)]

/-- `RBURST` (R79): n bytes into XB[0..n−1], `RESULT0` ← n. -/
def rburstProg (s : State) : Prog :=
  let n := u32Of s.engine.args.a1
  guardWrite xb n <|
    readBurst s.params (addr6 s.engine.args.a0) n fun bs =>
      .done fun t => (t.writeBytes xb bs).setResult0 s.engine.args.a1

/-- `RBURST addr, n` (40_bus_access.md R79). -/
def execRburst (s : State) : Host.Outcome State Fault Refusal := runCommand .rburst rburstCheck rburstProg s

/-! ## WBURST -/

/-- Checks of `WBURST` (R80). -/
def wburstCheck (s : State) : Option ErrCode :=
  let a := s.csr.args
  let n := u32Of a.a1
  firstError [(!addr6Ok a.a0, .badOperand), (isStatus (addr6 a.a0), .badOperand), (decide (n = 0 ∨ 256 < n), .range)]

/-- `WBURST` (R80): XB[0..n−1] to the transceiver, `RESULT0` ← n. -/
def wburstProg (s : State) : Prog :=
  readRange s xb (u32Of s.engine.args.a1) fun bs =>
    writeBurst s.params (addr6 s.engine.args.a0) bs (.done fun t => t.setResult0 s.engine.args.a1)

/-- `WBURST addr, n` (40_bus_access.md R80). -/
def execWburst (s : State) : Host.Outcome State Fault Refusal := runCommand .wburst wburstCheck wburstProg s

/-! ## STROBE -/

/-- Checks of `STROBE` (R81). -/
def strobeCheck (s : State) : Option ErrCode := firstError [(decide (6 < u32Of s.csr.args.a0), .range)]

/-- `STROBE` (R81): one strobe; strobe RESET drops the transceiver's configuration. -/
def strobeProg (s : State) : Prog :=
  match strobeOfIndex (u32Of s.engine.args.a0) with
  | some c => strobe s.params c (.done fun t => if c = .reset then t.setConf false else t)
  | none => .stop .brokenProgress

/-- `STROBE k` (40_bus_access.md R81). -/
def execStrobe (s : State) : Host.Outcome State Fault Refusal := runCommand .strobe strobeCheck strobeProg s

end Sys2Proof.Machine
end

