-- ==== Sys2Proof/Machine/Checksum.lean ====
section
/-! DEFINITION. The command `CRC16` (42_checksum.md R105). -/

namespace Sys2Proof.Machine

/-- Checks of `CRC16` (R105). -/
def crc16Check (s : State) : Option ErrCode :=
  let a := s.csr.args
  firstError [(!brefOk a.a0, .badOperand), (!readableRange (brefOf a.a0) (u32Of a.a1), .badOperand)]

/-- `CRC16` (R105): the checksum of n bytes at src. -/
def crc16Prog (s : State) : Prog :=
  let a := s.engine.args
  readRange s (brefOf a.a0) (u32Of a.a1) fun bs =>
    .done fun t => (t.setResult0 ((crcOut bs).setWidth 32)).setResult1 ((crcRaw bs).setWidth 32)

/-- `CRC16 src, n` (42_checksum.md R105). -/
def execCrc16 (s : State) : Host.Outcome State Fault Refusal := runCommand .crc16 crc16Check crc16Prog s

end Sys2Proof.Machine
end

