-- ==== Sys2Proof/Machine/Recovery.lean ====
section
/-! DEFINITION. Oversampled decode, sentinel check and field extraction as pure functions (44_decoder.md R112 to R125). -/

namespace Sys2Proof.Machine

/-- The samples of one captured byte, most significant first (44_decoder.md R112). -/
def byteSamples (b : Byte) : List Bool := (List.range 8).map fun j => b.getLsbD (7 - j)

/-- The samples of the captured bytes (44_decoder.md R112). -/
def samples (src : List Byte) : List Bool := src.flatMap byteSamples

/-- The decoder's working state (44_decoder.md R113): level and length of the current run, the signed remainder, the
position counter, the index of the byte in progress, the destination, and whether a stop-bit violation ended it. -/
structure Decoder where
  pol : Bool
  run : Nat
  rem : Int
  pos : Nat
  idx : Nat
  dst : List Byte
  stopped : Bool
  deriving DecidableEq, Repr

/-- One logical bit: advance the position, shift a data bit in, stop at a clear level in position 10, start the next
byte at a clear level in position 11 or more (44_decoder.md R113, R115, R116, R117). -/
def logicalBit (lvl : Bool) (d : Decoder) : Decoder :=
  let p := min (d.pos + 1) 255
  let dst := if 2 ≤ p ∧ p ≤ 9 then
      d.dst.modify d.idx fun b => (if lvl then 0x80#8 else 0#8) ||| (b >>> 1)
    else d.dst
  if p = 10 ∧ lvl = false then { d with pos := p, dst := dst, stopped := true }
  else if 11 ≤ p ∧ lvl = false then { d with pos := 1, dst := dst, idx := d.idx + 1 }
  else { d with pos := p, dst := dst }

/-- `k` logical bits of one level; a stop-bit violation ends decoding at once (44_decoder.md R116). -/
def logicalBits : Nat → Bool → Decoder → Decoder
  | 0, _, d => d
  | k + 1, lvl, d =>
    let d' := logicalBit lvl d
    if d'.stopped then d' else logicalBits k lvl d'

/-- The number of logical bits of a run: nearest, ties up, with the carried remainder (44_decoder.md R114). -/
def runBits (run : Nat) (rem : Int) : Int := ((run : Int) + rem + 2) / 4

/-- `Flush(c, lvl)`: convert the current run (44_decoder.md R113). -/
def flushRun (d : Decoder) : Decoder :=
  let k := runBits d.run d.rem
  logicalBits k.toNat d.pol { d with rem := (d.run : Int) + d.rem - 4 * k }

/-- One sample: it lengthens the current run or closes it (44_decoder.md R113). -/
def takeSample (d : Decoder) (x : Bool) : Decoder :=
  if d.stopped then d
  else if x = d.pol then { d with run := d.run + 1 }
  else
    let d' := flushRun d
    if d'.stopped then d' else { d' with pol := x, run := 1 }

/-- The decoder before the first sample (44_decoder.md R113, R118). -/
def decoderStart (first : Bool) (cap : Nat) : Decoder :=
  { pol := first, run := 0, rem := 0, pos := 0, idx := 0, dst := List.replicate cap 0, stopped := false }

/-- The decoder after the last sample, the final run flushed (44_decoder.md R113, R118, R119). -/
def decodeRun (src : List Byte) (cap : Nat) : Decoder :=
  match samples src with
  | [] => decoderStart false cap
  | x :: xs =>
    let d := (x :: xs).foldl takeSample (decoderStart x cap)
    if d.stopped then d else flushRun d

/-- What `Decode` returns: the decoded length L, whether it stopped at a stop-bit violation, and the destination
(44_decoder.md R113, R120). -/
structure Decoded where
  len : Nat
  stopped : Bool
  dst : List Byte
  deriving DecidableEq, Repr

/-- `Decode(src, cap)` (44_decoder.md R113). -/
def decodeSamples (src : List Byte) (cap : Nat) : Decoded :=
  let d := decodeRun src cap
  { len := d.idx, stopped := d.stopped, dst := d.dst }

/-- `bound(R)`, the least capacity that holds every decode of R bytes (44_decoder.md R121). -/
def decodeBound (r : Nat) : Nat := max 1 ((2 * r + 9) / 10)

/-- `HasSentinel(bytes)`: some byte equals 0xFF (44_decoder.md R123). -/
def hasSentinel (bytes : List Byte) : Bool := bytes.any fun b => b == 0xFF

/-- The index of the first 0xFF byte (44_decoder.md R127). -/
def firstSentinel (bytes : List Byte) : Option Nat := bytes.findIdx? fun b => b == 0xFF

/-- The fields of a decoded reply (44_decoder.md R124). -/
structure Fields where
  liters : Word
  litV : Bool
  batt : Byte
  hstart : Byte
  hend : Byte
  reads : Byte
  fldV : Bool
  deriving DecidableEq, Repr

/-- `Extract(D, L)` (44_decoder.md R124, 30_encoding.md R69): liters little-endian at 18..21 when L ≥ 30; battery,
hours and reads-counter at 31, 44, 45, 48 when L ≥ 48; 0 as a placeholder otherwise. `D` holds every offset read. -/
def extractFields (bytes : List Byte) (len : Nat) : Fields :=
  let at_ (i : Nat) : Byte := bytes.getD i 0
  let lit := decide (30 ≤ len)
  let fld := decide (48 ≤ len)
  { liters := if lit then at_ 21 ++ at_ 20 ++ at_ 19 ++ at_ 18 else 0
    litV := lit
    batt := if fld then at_ 31 else 0
    hstart := if fld then at_ 44 else 0
    hend := if fld then at_ 45 else 0
    reads := if fld then at_ 48 else 0
    fldV := fld }

/-- `Plausible(L, reads, batt, liters)` (44_decoder.md R125). -/
def plausible (len : Nat) (f : Fields) : Bool :=
  decide (48 ≤ len) && (f.reads != 0 || f.batt != 0 || f.liters != 0)

/-- `Over4(E)`: each bit, most significant first, repeated four times (44_decoder.md R122): four samples a bit, so each
byte becomes four. -/
def over4Byte (b : Byte) : List Byte :=
  let nib (x : Bool) : BitVec 4 := if x then 0xF else 0
  [nib (b.getLsbD 7) ++ nib (b.getLsbD 6), nib (b.getLsbD 5) ++ nib (b.getLsbD 4),
   nib (b.getLsbD 3) ++ nib (b.getLsbD 2), nib (b.getLsbD 1) ++ nib (b.getLsbD 0)]

/-- `Over4` of a byte list (44_decoder.md R122). -/
def over4 (bytes : List Byte) : List Byte := bytes.flatMap over4Byte

end Sys2Proof.Machine
end

