-- ==== Sys2Proof/Machine/DecoderCommands.lean ====
section
/-! DEFINITION. The commands `DECODE`, `SENTCHK`, `EXTRACT` (44_decoder.md R126 to R128). -/

namespace Sys2Proof.Machine

/-! ## DECODE -/

/-- Checks of `DECODE` (R126). -/
def decodeCheck (s : State) : Option ErrCode :=
  let a := s.csr.args
  let r := u32Of a.a1
  let cap := u32Of a.a3
  firstError [(!brefOk a.a0 || !brefOk a.a2, .badOperand), (!readableRange (brefOf a.a0) r, .badOperand),
    (!writableRange (brefOf a.a2) cap, .badOperand), (decide (cap < decodeBound r), .range)]

/-- `DECODE` (R126): the whole source is read first, then the destination is written. -/
def decodeProg (s : State) : Prog :=
  let a := s.engine.args
  let cap := u32Of a.a3
  guardWrite (brefOf a.a2) cap <|
    readRange s (brefOf a.a0) (u32Of a.a1) fun bs =>
      let d := decodeSamples bs cap
      .done fun t =>
        ((t.writeBytes (brefOf a.a2) d.dst).setResult0 (BitVec.ofNat 32 d.len)).setResult1 ((bit d.stopped).setWidth 32)

/-- `DECODE src, R, dst, cap` (44_decoder.md R126). -/
def execDecode (s : State) : Host.Outcome State Fault Refusal := runCommand .decode decodeCheck decodeProg s

/-! ## SENTCHK -/

/-- Checks of `SENTCHK` (R127). -/
def sentchkCheck (s : State) : Option ErrCode :=
  let a := s.csr.args
  firstError [(!brefOk a.a0, .badOperand), (!readableRange (brefOf a.a0) (u32Of a.a1), .badOperand)]

/-- The two results of `SENTCHK` (R127). -/
def sentchkResults (bytes : List Byte) (s : State) : State :=
  match firstSentinel bytes with
  | some i => (s.setResult0 1).setResult1 (BitVec.ofNat 32 i)
  | none => (s.setResult0 0).setResult1 0xFFFFFFFF

/-- `SENTCHK` (R127). -/
def sentchkProg (s : State) : Prog :=
  let a := s.engine.args
  readRange s (brefOf a.a0) (u32Of a.a1) fun bs => .done (sentchkResults bs)

/-- `SENTCHK src, n` (44_decoder.md R127). -/
def execSentchk (s : State) : Host.Outcome State Fault Refusal := runCommand .sentchk sentchkCheck sentchkProg s

/-! ## EXTRACT -/

/-- The bytes `EXTRACT` needs for a decoded length (R128). -/
def extractNeed (len : Nat) : Nat := if 48 ≤ len then 49 else if 30 ≤ len then 22 else 0

/-- Checks of `EXTRACT` (R128). -/
def extractCheck (s : State) : Option ErrCode :=
  let a := s.csr.args
  let len := u32Of a.a1
  firstError [(!brefOk a.a0, .badOperand), (decide (0xFFFF < len), .range),
    (!readableRange (brefOf a.a0) (extractNeed len), .badOperand)]

/-- The extracted fields in the reading registers: `RD_LINK` and `LINK_V` stay (R128). -/
def readingOfFields (f : Fields) (len : Nat) (r : Reading) : Reading :=
  { r with liters := f.liters, reads := f.reads, batt := f.batt, hstart := f.hstart, hend := f.hend
           litV := f.litV, fldV := f.fldV, decLen := BitVec.ofNat 16 len }

/-- `EXTRACT` (R128). -/
def extractProg (s : State) : Prog :=
  let a := s.engine.args
  let len := u32Of a.a1
  readRange s (brefOf a.a0) (extractNeed len) fun bs =>
    let f := extractFields bs len
    .done fun t => (t.mapReading (readingOfFields f len)).setResult0 ((bit (plausible len f)).setWidth 32)

/-- `EXTRACT src, L` (44_decoder.md R128). -/
def execExtract (s : State) : Host.Outcome State Fault Refusal := runCommand .extract extractCheck extractProg s

end Sys2Proof.Machine
end

