-- ==== Sys2Proof/Machine/Framing.lean ====
section
/-! DEFINITION. Request construction and serial framing as pure functions (43_framer.md R106 to R109). -/

namespace Sys2Proof.Machine

/-- The eight data bits of a byte, least significant first (43_framer.md R107). -/
def dataBits (b : Byte) : List Bool := (List.range 8).map fun j => b.getLsbD j

/-- The framed bit stream before padding: per byte a clear start bit, the data bits, and three set stop bits for every
byte but the last (43_framer.md R107). -/
def framedBits : List Byte → List Bool
  | [] => []
  | b :: rest =>
    match rest with
    | [] => false :: dataBits b
    | _ :: _ => (false :: dataBits b) ++ ([true, true, true] ++ framedBits rest)

/-- Padding with set bits to a whole number of bytes (43_framer.md R107). -/
def padBits (bits : List Bool) : List Bool := bits ++ List.replicate ((8 - bits.length % 8) % 8) true

/-- A byte from eight bits, most significant first. -/
def byteOfBits (bits : List Bool) : Byte := bits.foldl (fun acc b => (acc <<< 1) ||| (BitVec.ofBool b).setWidth 8) 0

/-- Packing of bits into bytes, most significant bit first (43_framer.md R107). -/
def packBits : List Bool → List Byte
  | b7 :: b6 :: b5 :: b4 :: b3 :: b2 :: b1 :: b0 :: rest => byteOfBits [b7, b6, b5, b4, b3, b2, b1, b0] :: packBits rest
  | _ => []

/-- `Encode(P)` with its 0xFF sentinel (43_framer.md R107). -/
def encodeFrame (payload : List Byte) : List Byte := packBits (padBits (framedBits payload)) ++ [0xFF]

/-- `m(n)`, the output length for a payload of n bytes (43_framer.md R108). -/
def encodedLength (n : Nat) : Nat := (12 * n + 4) / 8 + 1

/-- The first 17 bytes of the request payload: the template with the year code at offset 4 and the serial number,
big-endian, at offsets 5 to 7 (43_framer.md R106). -/
def payloadBody (template : List Byte) (year : Byte) (serial : BitVec 24) : List Byte :=
  template.take 4 ++ [year, serial.extractLsb' 16 8, serial.extractLsb' 8 8, serial.extractLsb' 0 8] ++
    (template.drop 8).take 9

/-- `BuildPayload(year, serial)`: the body, then its checksum big-endian (43_framer.md R106). -/
def buildPayload (p : Params) (year : Byte) (serial : BitVec 24) : List Byte :=
  let body := payloadBody p.reqTemplate.toList year serial
  let out := crcOut body
  body ++ [out.extractLsb' 8 8, out.extractLsb' 0 8]

/-- `BuildPayload` of a meter identity word: `YEAR` = bits 31:24, `SERIAL` = bits 23:0 (10_state.md R26). -/
def payloadOfMeter (p : Params) (meterId : Word) : List Byte :=
  buildPayload p (meterId.extractLsb' 24 8) (meterId.extractLsb' 0 24)

/-- `BuildFrame(P)`: the sync pattern verbatim, then the framed payload (43_framer.md R109). -/
def buildFrame (p : Params) (payload : List Byte) : List Byte := p.syncPattern.toList ++ encodeFrame payload

end Sys2Proof.Machine
end

