-- ==== Sys2Proof/Machine/Framer.lean ====
section
/-! DEFINITION. The commands `BUILD_REQ` and `ENCODE` (43_framer.md R110, R111). -/

namespace Sys2Proof.Machine

/-! ## BUILD_REQ -/

/-- The request of a meter in the buffers: payload in PAYB, frame in TXB (R110, 45_read_sequencer.md R135). -/
def writeRequest (payload : List Byte) (s : State) : State :=
  (s.writeBytes payb payload).writeBytes txb (buildFrame s.params payload)

/-- `BUILD_REQ` (R110): payload and frame from `METER_ID`; `RESULT0` ← 39, `RESULT1` ← the checksum. -/
def buildReqProg (s : State) : Prog :=
  let payload := payloadOfMeter s.params s.csr.meterId
  .done fun t =>
    ((writeRequest payload t).setResult0 39).setResult1 ((crcOut (payload.take 17)).setWidth 32)

/-- `BUILD_REQ` (43_framer.md R110). -/
def execBuildReq (s : State) : Host.Outcome State Fault Refusal := runCommand .buildReq noCheck buildReqProg s

/-! ## ENCODE -/

/-- Checks of `ENCODE` (R111). -/
def encodeCheck (s : State) : Option ErrCode :=
  let a := s.csr.args
  let n := u32Of a.a1
  firstError [(!brefOk a.a0 || !brefOk a.a2, .badOperand), (decide (n = 0), .range),
    (!readableRange (brefOf a.a0) n, .badOperand), (!writableRange (brefOf a.a2) (encodedLength n), .badOperand)]

/-- `ENCODE` (R111): the whole source is read first, then the framed bytes are written. -/
def encodeProg (s : State) : Prog :=
  let a := s.engine.args
  let n := u32Of a.a1
  guardWrite (brefOf a.a2) (encodedLength n) <|
    readRange s (brefOf a.a0) n fun bs =>
      .done fun t => (t.writeBytes (brefOf a.a2) (encodeFrame bs)).setResult0 (BitVec.ofNat 32 (encodedLength n))

/-- `ENCODE src, n, dst` (43_framer.md R111). -/
def execEncode (s : State) : Host.Outcome State Fault Refusal := runCommand .encode encodeCheck encodeProg s

end Sys2Proof.Machine
end

