-- ==== Sys2Proof/Machine/Lifecycle.lean ====
section
/-! DEFINITION. The RF lifecycle and configuration commands (41_rf_lifecycle.md R82 to R98). -/

namespace Sys2Proof.Machine

/-! ## Conversions -/

/-- `FreqWord(hz)` (R84): round half up, exact. -/
def freqWord (hz : Nat) : Nat := (hz * 65536 + 13000000) / 26000000

/-- `FreqHz(w)` (R86): round half up, exact. -/
def freqHz (w : Nat) : Nat := (w * 26000000 + 32768) / 65536

/-- `FreqRem(w)` (R86). -/
def freqRem (w : Nat) : Nat := (w * 26000000) % 65536

/-- `s8(b)` (00_scope.md R11). -/
def s8 (b : Byte) : Int := if 128 ≤ b.toNat then (b.toNat : Int) - 256 else b.toNat

/-- `RssiX2(raw)`, twice the dBm value (R88). -/
def rssiX2 (raw : Byte) : Int := s8 raw - 148

/-! ## Procedures -/

/-- `ResetSeq()` (R82): chip-select toggle, RESET, FLUSH_RX, FLUSH_TX. The clearing of `CONF` is the caller's effect. -/
def resetSeq (p : Params) (k : Prog) : Prog :=
  .bus [] fun _ => strobe p .reset <| strobe p .flushRx <| strobe p .flushTx k

/-- What `Probe()` returns (R83). -/
structure ProbeResult where
  ok : Bool
  id0 : Byte
  id1 : Byte
  attempts : Nat
  deriving DecidableEq, Repr

/-- Both reads 0xFF, or both 0x00: no valid chip (R83). -/
def badIdentity (id0 id1 : Byte) : Bool := (id0 == 0xFF && id1 == 0xFF) || (id0 == 0 && id1 == 0)

/-- Attempts `att`, `att + 1`, … of `Probe()`, with `left` more after this one; a reset between attempts (R83). -/
def probeFrom (p : Params) : (left att : Nat) → (ProbeResult → Prog) → Prog
  | 0, att, k =>
    readReg p p.idAddr0 fun id0 => readReg p p.idAddr1 fun id1 =>
      k { ok := !badIdentity id0 id1, id0 := id0, id1 := id1, attempts := att }
  | left + 1, att, k =>
    readReg p p.idAddr0 fun id0 => readReg p p.idAddr1 fun id1 =>
      if badIdentity id0 id1 then resetSeq p (probeFrom p left (att + 1) k)
      else k { ok := true, id0 := id0, id1 := id1, attempts := att }

/-- `Probe()`: up to 3 attempts (R83). -/
def probeSeq (p : Params) (k : ProbeResult → Prog) : Prog := probeFrom p 2 1 k

/-- The flags `Probe()` leaves: `CHIP` ← ok, and `CONF` ← 0 if a reset ran (R83, R91). -/
def probeFlags (r : ProbeResult) (s : State) : State :=
  (if 1 < r.attempts then s.setConf false else s).setChip r.ok

/-- `{15'0, ok, id1, id0}` (R91). -/
def probeWord (r : ProbeResult) : Word := 0#15 ++ bit r.ok ++ r.id1 ++ r.id0

/-- `Configure(hz)` (R89): the table, the frequency word's top, mid and low bytes, minimal transmit power. -/
def configureSeq (p : Params) (hz : Word) (k : BitVec 24 → Prog) : Prog :=
  let w : BitVec 24 := BitVec.ofNat 24 (freqWord hz.toNat)
  applySeq p p.cfgTable <|
    writeReg p p.freqAddrTop (w.extractLsb' 16 8) <|
    writeReg p p.freqAddrMid (w.extractLsb' 8 8) <|
    writeReg p p.freqAddrLow (w.extractLsb' 0 8) <|
    writeReg p p.paAddr p.paMin (k w)

/-- The registers `Configure(hz)` leaves: `FREQWORD_CUR` ← w, `CONF` ← 1 (R89). -/
def configured (w : BitVec 24) (s : State) : State :=
  State.setConf { s with csr := { s.csr with freqWordCur := w } } true

/-! ## RESET -/

/-- `RESET` (R90). -/
def resetProg (s : State) : Prog := resetSeq s.params (.done fun t => t.setConf false)

/-- `RESET` (41_rf_lifecycle.md R90). -/
def execReset (s : State) : Host.Outcome State Fault Refusal := runCommand .reset noCheck resetProg s

/-! ## PROBE -/

/-- `PROBE` (R91). -/
def probeProg (s : State) : Prog :=
  probeSeq s.params fun r =>
    .done fun t => ((probeFlags r t).setResult0 (probeWord r)).setResult1 (BitVec.ofNat 32 r.attempts)

/-- `PROBE` (41_rf_lifecycle.md R91). -/
def execProbe (s : State) : Host.Outcome State Fault Refusal := runCommand .probe noCheck probeProg s

/-! ## CONFIGURE -/

/-- `CONFIGURE` (R92). -/
def configureProg (s : State) : Prog :=
  configureSeq s.params s.engine.args.a0 fun w => .done fun t => (configured w t).setResult0 (w.setWidth 32)

/-- `CONFIGURE hz` (41_rf_lifecycle.md R92). -/
def execConfigure (s : State) : Host.Outcome State Fault Refusal := runCommand .configure noCheck configureProg s

/-! ## ENTER_RX -/

/-- `ENTER_RX_LIMIT_MS` (00_scope.md R8). -/
def enterRxLimitMs : Nat := 300

/-- The chip state: the state register masked to its low 5 bits (R93). -/
def chipState (b : Byte) : ChipState := b.extractLsb' 0 5

/-- One poll of `ENTER_RX` (R93): the state is tested before the time limit; otherwise another pass follows. -/
def enterRxPoll (s : State) : Prog :=
  readReg s.params s.params.marcAddr fun v =>
    let st := chipState v
    if st ∈ s.params.rxStates then .done fun t => (t.setResult0 (st.setWidth 32)).setResult1 1
    else .clock fun now =>
      if enterRxLimitMs ≤ elapsed s.engine.t0 now then .done fun t => (t.setResult0 (st.setWidth 32)).setResult1 0
      else .again 2

/-- `ENTER_RX` (R93): strobe IDLE, strobe RX, poll. The two strobes' replies are kept from pass to pass. -/
def enterRxProg (s : State) : Prog := strobe s.params .idle <| strobe s.params .rx <| enterRxPoll s

/-- `ENTER_RX` (41_rf_lifecycle.md R93). -/
def execEnterRx (s : State) : Host.Outcome State Fault Refusal := runCommand .enterRx noCheck enterRxProg s

/-! ## INIT -/

/-- `INIT` (R94): probe, then configure with CSR `FREQ` if the probe succeeded. `FREQ` is read when the probe has ended
(log 17). -/
def initProg (s : State) : Prog :=
  probeSeq s.params fun r =>
    if r.ok then
      .csr (fun c => c.freq) fun hz =>
        configureSeq s.params hz fun w =>
          .done fun t => ((configured w (probeFlags r t)).setResult0 (probeWord r)).setResult1 (w.setWidth 32)
    else .done fun t => ((probeFlags r t).setResult0 (probeWord r)).setResult1 0

/-- `INIT` (41_rf_lifecycle.md R94). -/
def execInit (s : State) : Host.Outcome State Fault Refusal := runCommand .init noCheck initProg s

/-! ## DIAG -/

/-- Single reads of `n` consecutive transceiver addresses from `a` on, the bytes collected in order (R95). -/
def readRegs (p : Params) : (n : Nat) → (a : ChipAddr) → (got : List Byte) → (List Byte → Prog) → Prog
  | 0, _, got, k => k got
  | n + 1, a, got, k => readReg p a fun v => readRegs p n (a + 1) (got ++ [v]) k

/-- `DIAG` (R95): the status registers 0x30..0x3D into XB[0..13]. -/
def diagProg (s : State) : Prog :=
  readRegs s.params 14 0x30 [] fun bs => .done fun t => (t.writeBytes xb bs).setResult0 14

/-- `DIAG` (41_rf_lifecycle.md R95). -/
def execDiag (s : State) : Host.Outcome State Fault Refusal := runCommand .diag noCheck diagProg s

/-! ## RSSI_DBM -/

/-- Checks of `RSSI_DBM` (R96). -/
def rssiDbmCheck (s : State) : Option ErrCode := firstError [(!byteOk s.csr.args.a0, .badOperand)]

/-- `RSSI_DBM` (R96): twice the dBm value, sign-extended. -/
def rssiDbmProg (s : State) : Prog :=
  .done fun t => t.setResult0 (BitVec.ofInt 32 (rssiX2 (byteOf s.engine.args.a0)))

/-- `RSSI_DBM raw` (41_rf_lifecycle.md R96). -/
def execRssiDbm (s : State) : Host.Outcome State Fault Refusal := runCommand .rssiDbm rssiDbmCheck rssiDbmProg s

/-! ## FREQ_WORD -/

/-- `FREQ_WORD` (R97). -/
def freqWordProg (s : State) : Prog :=
  .done fun t => t.setResult0 (BitVec.ofNat 32 (freqWord (u32Of s.engine.args.a0)))

/-- `FREQ_WORD hz` (41_rf_lifecycle.md R97). -/
def execFreqWord (s : State) : Host.Outcome State Fault Refusal := runCommand .freqWord noCheck freqWordProg s

/-! ## FREQ_HZ -/

/-- Checks of `FREQ_HZ` (R98). -/
def freqHzCheck (s : State) : Option ErrCode :=
  let a := s.csr.args
  firstError [(!word24Ok a.a0, .badOperand), (decide (0xA530E8 < (word24Of a.a0).toNat), .range)]

/-- `FREQ_HZ` (R98). -/
def freqHzProg (s : State) : Prog :=
  let w := (word24Of s.engine.args.a0).toNat
  .done fun t => (t.setResult0 (BitVec.ofNat 32 (freqHz w))).setResult1 (BitVec.ofNat 32 (freqRem w))

/-- `FREQ_HZ w` (41_rf_lifecycle.md R98). -/
def execFreqHz (s : State) : Host.Outcome State Fault Refusal := runCommand .freqHz freqHzCheck freqHzProg s

end Sys2Proof.Machine
end

