-- ==== Sys2Proof/Machine/Sequencer.lean ====
section
/-! DEFINITION. The read session sequencer and the commands `NOP`, `START_READ`, `TICK` (45_read_sequencer.md R129 to
R151). One definition for each state's action. -/

namespace Sys2Proof.Machine

/-! ## The tick mechanism (R129, R130) -/

/-- A budget measured from an entry time has expired (R130). -/
def expired (t0 budget now : Word) : Bool := decide (budget.toNat ≤ elapsed t0 now)

/-- The tick's results: `RESULT0` ← the session state after the tick, `RESULT1` ← 1 if a transition was made (R129). -/
def tickResults (moved : Bool) (s : State) : State :=
  (s.setResult0 ((sessNumber s.sess.state).setWidth 32)).setResult1 ((bit moved).setWidth 32)

/-- The tick ends in the state it began in (R129). -/
def tickStay (fx : State → State) : Prog := .done fun s => tickResults false (fx s)

/-- The tick ends with a transition (R129). -/
def tickGoto (next : SessState) (now : Word) (fx : State → State) : Prog :=
  .done fun s => tickResults true ((fx s).goto next now)

/-- The tick ends with a transition to Fail (R129, 60_exceptions.md R160). -/
def tickFail (code : FailCode) (now : Word) (fx : State → State) : Prog :=
  .done fun s => tickResults true ((fx s).failSession code now)

/-! ## State actions -/

/-- The number of wake bytes pushed at once (00_scope.md R8 `WAKE_COUNT`, `TOPUP_N`). -/
def wakeCount : Nat := 8

/-- `TOPUP_LOW` (00_scope.md R8). -/
def topupLow : Nat := 8

/-- The preamble countdown `max(1, T_PREAMBLE div T_PACE)` (R132); the quotient by 0 is a free value (log 9). -/
def preambleCountdown (preamble pace : Word) : Word :=
  let q := if pace = 0 then Config.paceQuotient preamble else preamble / pace
  if q = 0 then 1 else q

/-- Action of StartPreamble (R132). -/
def actStartPreamble (s : State) (now : Word) : Prog :=
  strobe s.params .flushTx <|
    applySeq s.params s.params.preambleSeq <|
    writeBurst s.params s.params.fifoAddr (List.replicate wakeCount s.params.wakeByte) <|
    strobe s.params .tx <|
    tickGoto .streamPreamble now fun t =>
      t.mapSess fun x =>
        { x with countdown := preambleCountdown x.budgets.preamble x.budgets.pace, lastPace := now }

/-- The end of a pacing step: count down, and leave at 0 (R133). -/
def paceStepEnd (s : State) (now : Word) : Prog :=
  let fx (t : State) : State := t.mapSess fun x => { x with lastPace := now, countdown := x.countdown - 1 }
  if s.sess.countdown - 1 = 0 then tickGoto .guardBeforeReq now fx else tickStay fx

/-- The FIFO part of a pacing step: top up when the occupancy is low (R133). -/
def paceTopUp (s : State) (now : Word) : Prog :=
  readReg s.params s.params.txBytesAddr fun c =>
    if (c &&& s.params.cntMask).toNat < topupLow then
      writeBurst s.params s.params.fifoAddr (List.replicate wakeCount s.params.wakeByte) (paceStepEnd s now)
    else paceStepEnd s now

/-- Action of StreamPreamble (R133). -/
def actStreamPreamble (s : State) (now : Word) : Prog :=
  if elapsed s.sess.lastPace now < s.sess.budgets.pace.toNat then tickStay id
  else
    readReg s.params s.params.marcAddr fun v =>
      if chipState v ∈ s.params.txStates then paceTopUp s now else strobe s.params .tx (paceTopUp s now)

/-- Action of GuardBeforeReq (R134). -/
def actGuardBeforeReq (s : State) (now : Word) : Prog :=
  if expired s.sess.t0 s.sess.budgets.guardTime now then tickGoto .startRequest now id else tickStay id

/-- Action of StartRequest (R135). -/
def actStartRequest (s : State) (now : Word) : Prog :=
  let payload := payloadOfMeter s.params s.sess.meterId
  applySeq s.params s.params.reqSeq <|
    tickGoto .streamRequest now fun t =>
      (writeRequest payload t).mapSess fun x => { x with reqLen := 39, sent := 0 }

/-- The end of a StreamRequest tick with `sent` bytes written: all sent, or the budget, or another tick (R136). -/
def streamRequestEnd (s : State) (now : Word) (sent : BitVec 16) : Prog :=
  let fx (t : State) : State := t.mapSess fun x => { x with sent := sent }
  if sent = s.sess.reqLen then tickGoto .waitTxFinish now fx
  else if expired s.sess.t0 s.sess.budgets.txStream now then tickFail .txStreamTimeout now fx
  else tickStay fx

/-- The bytes of the request a StreamRequest tick may write: bounded by the FIFO's free space (R136). -/
def requestChunk (s : State) (count : Nat) : Nat :=
  min (s.params.fifoSize - count) (s.sess.reqLen.toNat - s.sess.sent.toNat)

/-- Action of StreamRequest (R136). -/
def actStreamRequest (s : State) (now : Word) : Prog :=
  readReg s.params s.params.txBytesAddr fun r =>
    if r &&& s.params.ufMask ≠ 0 then
      strobe s.params .flushTx <| strobe s.params .tx <| streamRequestEnd s now 0
    else
      let chunk := requestChunk s (r &&& s.params.cntMask).toNat
      if 0 < chunk then
        readRange s (txb + s.sess.sent) chunk fun bs =>
          writeBurst s.params s.params.fifoAddr bs <|
            streamRequestEnd s now (s.sess.sent + BitVec.ofNat 16 chunk)
      else streamRequestEnd s now s.sess.sent

/-- Action of WaitTxFinish (R137). -/
def actWaitTxFinish (s : State) (now : Word) : Prog :=
  readReg s.params s.params.marcAddr fun v =>
    if chipState v ∉ s.params.txStates then
      applySeq s.params s.params.defaultSeq <| tickGoto .dataSetupStage1 now id
    else if expired s.sess.t0 s.sess.budgets.txDrain now then
      applySeq s.params s.params.defaultSeq <| tickFail .txDrainTimeout now id
    else tickStay id

/-- Action of DataSetupStage1 (R138). -/
def actDataSetupStage1 (s : State) (now : Word) : Prog :=
  applySeq s.params s.params.ackRxSeq <|
    strobe s.params .idle <| strobe s.params .rx <| tickGoto .dataWaitSync1 now id

/-- Action of DataWaitSync1 (R139): the ack's timeout is tolerated. -/
def actDataWaitSync1 (s : State) (now : Word) : Prog :=
  .level fun ready =>
    if ready then tickGoto .dataFetch1 now id
    else if expired s.sess.t0 s.sess.budgets.ack now then tickGoto .dataFetch1 now id
    else tickStay id

/-- Action of DataFetch1 (R140): the drained bytes are discarded. -/
def actDataFetch1 (s : State) (now : Word) : Prog :=
  readReg s.params s.params.rxBytesAddr fun r =>
    let c := (r &&& s.params.cntMask).toNat
    if 0 < c then
      readBurst s.params s.params.fifoAddr (min c s.params.fifoSize) fun _ => tickGoto .dataSetupStage2 now id
    else tickGoto .dataSetupStage2 now id

/-- The target count `((F × 11) div 8 + 1) × 4` (R141). -/
def targetCount (frameSize : Nat) : Nat := ((frameSize * 11) / 8 + 1) * 4

/-- Action of DataSetupStage2 (R141). -/
def actDataSetupStage2 (s : State) (now : Word) : Prog :=
  applySeq s.params s.params.dataRxSeq <|
    strobe s.params .idle <| strobe s.params .rx <|
    tickGoto .dataWaitSync2 now fun t =>
      t.mapSess fun x => { x with target := BitVec.ofNat 16 (targetCount x.frameSize.toNat), recv := 0 }

/-- Action of DataWaitSync2 (R142). -/
def actDataWaitSync2 (s : State) (now : Word) : Prog :=
  .level fun ready =>
    if ready then
      readReg s.params s.params.rssiAddr fun rssi => readReg s.params s.params.lqiAddr fun lqi =>
        tickGoto .dataFetch2 now fun t =>
          t.mapSess fun x => { x with stg := { x.stg with rssiRaw := rssi, lqi := lqi, linkV := true } }
    else if expired s.sess.t0 s.sess.budgets.data now then tickFail .sync2Timeout now id
    else tickStay id

/-- The end of a DataFetch2 tick in which `recv` bytes have been received and `got` of them are new: target reached
with or without a sentinel, or the budget, or another tick (R143). -/
def dataFetch2End (s : State) (now : Word) (got : List Byte) : Prog :=
  let recv : BitVec 16 := s.sess.recv + BitVec.ofNat 16 got.length
  let fx (t : State) : State :=
    if got.isEmpty then t
    else (t.writeBytes (rawb + s.sess.recv) got).mapSess fun x => { x with recv := recv }
  if recv = s.sess.target then
    applySeq s.params s.params.defaultSeq <|
      readRange (fx s) rawb recv.toNat fun raw =>
        if hasSentinel raw then tickGoto .decode now fx else tickFail .noSentinel now fx
  else if expired s.sess.t0 s.sess.budgets.data now then
    applySeq s.params s.params.defaultSeq <| tickFail .fetch2Timeout now fx
  else tickStay fx

/-- The bytes a DataFetch2 tick takes from the FIFO (R143). -/
def fetchChunk (s : State) (count : Nat) : Nat :=
  min (min count s.params.fifoSize) (s.sess.target.toNat - s.sess.recv.toNat)

/-- Action of DataFetch2 (R143). -/
def actDataFetch2 (s : State) (now : Word) : Prog :=
  readReg s.params s.params.rxBytesAddr fun r =>
    let chunk := fetchChunk s (r &&& s.params.cntMask).toNat
    if 0 < chunk then
      readBurst s.params s.params.fifoAddr chunk fun bs =>
        if s.sess.recv.toNat + chunk ≤ spaceSize (spaceOf rawb) then dataFetch2End s now bs else .stop .unmappedRange
    else dataFetch2End s now []

/-- The decoded fields in the staging area (R144). -/
def stagingOfFields (f : Fields) (len : Nat) (g : Staging) : Staging :=
  { g with liters := f.liters, batt := f.batt, hstart := f.hstart, hend := f.hend, reads := f.reads
           len := BitVec.ofNat 16 len }

/-- `DECB_SIZE`, the capacity of the Decode state's decode (R144). -/
def decbSize : Nat := 1024

/-- Action of Decode (R144). -/
def actDecode (s : State) (now : Word) : Prog :=
  readRange s rawb s.sess.recv.toNat fun raw =>
    let d := decodeSamples raw decbSize
    let f := extractFields d.dst d.len
    let fx (t : State) : State :=
      (t.writeBytes decb d.dst).mapSess fun x => { x with stg := stagingOfFields f d.len x.stg }
    if plausible d.len f then tickGoto .publish now fx
    else if d.len < 48 then tickFail .shortFrame now fx
    else tickFail .implausible now fx

/-- The reading registers of a successful session (R145). -/
def readingOfStaging (g : Staging) : Reading :=
  { liters := g.liters, reads := g.reads, batt := g.batt, hstart := g.hstart, hend := g.hend
    rssiRaw := g.rssiRaw, lqi := g.lqi, rssiX2 := BitVec.ofInt 16 (rssiX2 g.rssiRaw)
    litV := true, fldV := true, linkV := g.linkV, decLen := g.len }

/-- What Publish leaves in the registers (R145). -/
def publishReading (s : State) : State :=
  let g := s.sess.stg
  { s with csr := { s.csr with
      reading := readingOfStaging g
      learn := { hstart := g.hstart, hend := g.hend, known := true }
      status := { s.csr.status with sok := true, pub := s.csr.status.pub || s.sess.pub } } }

/-- Action of Publish (R145). -/
def actPublish (_ : State) (now : Word) : Prog := tickGoto .idle now publishReading

/-- Action of Fail (R146). -/
def actFail (s : State) (now : Word) : Prog :=
  strobe s.params .flushRx <| strobe s.params .flushTx <| strobe s.params .idle <|
    applySeq s.params s.params.defaultSeq <|
    tickGoto .idle now fun t => t.mapStatus fun st => { st with sfail := true }

/-- `Action[S](now)` for the state the session is in (R131). Idle has none. The table has 14 states from StartPreamble to
Publish, each of which can exit in its first tick, so a success can take 14 ticks; R148 and R184 say "at least 15"
(DEDUCED: the table and the actions are followed, log 28). -/
def sessionAction (s : State) (now : Word) : Prog :=
  match s.sess.state with
  | .idle => tickStay id
  | .startPreamble => actStartPreamble s now
  | .streamPreamble => actStreamPreamble s now
  | .guardBeforeReq => actGuardBeforeReq s now
  | .startRequest => actStartRequest s now
  | .streamRequest => actStreamRequest s now
  | .waitTxFinish => actWaitTxFinish s now
  | .dataSetupStage1 => actDataSetupStage1 s now
  | .dataWaitSync1 => actDataWaitSync1 s now
  | .dataFetch1 => actDataFetch1 s now
  | .dataSetupStage2 => actDataSetupStage2 s now
  | .dataWaitSync2 => actDataWaitSync2 s now
  | .dataFetch2 => actDataFetch2 s now
  | .decode => actDecode s now
  | .publish => actPublish s now
  | .fail => actFail s now

/-! ## NOP -/

/-- `NOP` (R149): completes. -/
def nopProg (_ : State) : Prog := .done id

/-- `NOP` (45_read_sequencer.md R149). -/
def execNop (s : State) : Host.Outcome State Fault Refusal := runCommand .nop noCheck nopProg s

/-! ## START_READ -/

/-- Checks of `START_READ` (R150). -/
def startReadCheck (s : State) : Option ErrCode :=
  let c := s.csr
  firstError [(!c.status.chip, .noChip), (!flagOk c.args.a0, .badOperand), (decide (c.budgets.pace = 0), .range),
    (decide (c.frameSize.toNat < 1 ∨ 744 < c.frameSize.toNat), .range)]

/-- The session `START_READ` sets up: the host's parameters latched, everything else cleared (R150). The CSRs are those
of the block step that latches them (log 9, log 10). -/
def freshSession (c : Csrs) (publish : Bool) : Session :=
  { Session.reset with pub := publish, meterId := c.meterId, budgets := c.budgets, frameSize := c.frameSize }

/-- `START_READ` (R150). -/
def startReadProg (s : State) : Prog :=
  .clock fun now =>
    .done fun t =>
      ((State.goto { t with sess := freshSession t.csr (flagOf s.engine.args.a0) } .startPreamble now).mapStatus
        fun st => { st with sok := false, sfail := false }).setResult0 1

/-- `START_READ publish` (45_read_sequencer.md R150). -/
def execStartRead (s : State) : Host.Outcome State Fault Refusal := runCommand .startRead startReadCheck startReadProg s

/-! ## TICK -/

/-- `TICK` (R151): with no session both results are 0; else one clock reading and the state's action (R129). -/
def tickProg (s : State) : Prog :=
  if s.sess.state = .idle then .done fun t => (t.setResult0 0).setResult1 0
  else .clock fun now => sessionAction s now

/-- `TICK` (45_read_sequencer.md R151). -/
def execTick (s : State) : Host.Outcome State Fault Refusal := runCommand .tick noCheck tickProg s

end Sys2Proof.Machine
end

