-- ==== Sys2Proof/Machine/Dispatch.lean ====
section
/-! DEFINITION. The dispatch: one arm for each constructor of `Instr`, each a direct call of its meaning. -/

namespace Sys2Proof.Machine

def exec (i : Instr) (s : State) : Host.Outcome State Fault Refusal :=
  match i with
  | .nop => Sys2Proof.Machine.execNop s
  | .wreg => Sys2Proof.Machine.execWreg s
  | .rreg => Sys2Proof.Machine.execRreg s
  | .rburst => Sys2Proof.Machine.execRburst s
  | .wburst => Sys2Proof.Machine.execWburst s
  | .strobe => Sys2Proof.Machine.execStrobe s
  | .reset => Sys2Proof.Machine.execReset s
  | .probe => Sys2Proof.Machine.execProbe s
  | .configure => Sys2Proof.Machine.execConfigure s
  | .enterRx => Sys2Proof.Machine.execEnterRx s
  | .init => Sys2Proof.Machine.execInit s
  | .diag => Sys2Proof.Machine.execDiag s
  | .rssiDbm => Sys2Proof.Machine.execRssiDbm s
  | .freqWord => Sys2Proof.Machine.execFreqWord s
  | .freqHz => Sys2Proof.Machine.execFreqHz s
  | .crc16 => Sys2Proof.Machine.execCrc16 s
  | .buildReq => Sys2Proof.Machine.execBuildReq s
  | .encode => Sys2Proof.Machine.execEncode s
  | .decode => Sys2Proof.Machine.execDecode s
  | .sentchk => Sys2Proof.Machine.execSentchk s
  | .extract => Sys2Proof.Machine.execExtract s
  | .startRead => Sys2Proof.Machine.execStartRead s
  | .tick => Sys2Proof.Machine.execTick s

end Sys2Proof.Machine
end

