-- ==== Sys2Proof/Machine/HostPort.lean ====
section
/-! DEFINITION. The host port: reads and writes of CSRs and buffers (20_memory.md R43 to R48), the submission of a command
word (60_exceptions.md R152), block reset (70_reset_and_hazards.md R170), and whose turn a step is. -/

namespace Sys2Proof.Machine

/-! ## Accesses -/

/-- A host read (20_memory.md R43 to R45, R48). A CSR read is 32 bits wide and aligned, a byte read 8 bits; a read of
`NOW` takes a clock reading. -/
def hostRead (a : HostAddr) (size : HSize) (s : State) : Host.Outcome State Fault Refusal :=
  if spaceOf a = 0 then
    match size, csrAt (offsetOf a) with
    | .word, some c =>
      let t : State := if c = .now then { s with env := s.env.readClock.2 } else s
      .next (t.respond (readCsr t c) false)
    | _, _ => .next s.hostReadFault
  else if size = .byte ∧ spaceOf a ≤ 7 ∧ offsetOf a < spaceSize (spaceOf a) then
    match s.readByte a with
    | some b => .next (s.respond (b.setWidth 32) false)
    | none => .fault .readUnwritten
  else .next s.hostReadFault

/-- A buffer write the single-owner rule blocks: TXB, RAWB, DECB, PAYB during a session, any buffer while a command is
running (20_memory.md R47). -/
def writeBlocked (space : Nat) (s : State) : Bool := s.engine.busy || (s.sact && decide (space ≠ 4))

/-- A host write (20_memory.md R43, R44, R46, R47). `HRDATA` keeps its value (log 13). -/
def hostWrite (a : HostAddr) (size : HSize) (w : Word) (s : State) : Host.Outcome State Fault Refusal :=
  if spaceOf a = 0 then
    match size, csrAt (offsetOf a) with
    | .word, some c => .next (State.respond { s with csr := writeCsr w s.csr c } s.port.hrdata false)
    | _, _ => .next s.hostFault
  else if size = .byte ∧ spaceOf a ≤ 5 ∧ offsetOf a < spaceSize (spaceOf a) ∧ writeBlocked (spaceOf a) s = false then
    .next ((s.writeBytes a [w.extractLsb' 0 8]).respond s.port.hrdata false)
  else .next s.hostFault

/-- A host access. While `RST_N` = 0 it is not performed and returns 0 without `HERR` (70_reset_and_hazards.md R170). -/
def hostAccess (x : HostAccess) (s : State) : Host.Outcome State Fault Refusal :=
  if s.port.rstN = false then .next (s.respond 0 false)
  else if x.write then hostWrite x.addr x.size x.data s
  else hostRead x.addr x.size s

/-- The access is a performed host write of `CMD`. -/
def isCmdWrite (x : HostAccess) (s : State) : Bool :=
  s.port.rstN && x.write && decide (x.size = .word) && decide (spaceOf x.addr = 0) &&
    decide (csrAt (offsetOf x.addr) = some .cmd)

/-! ## Submission of a command word -/

/-- `OnCmdWrite(w)` (60_exceptions.md R152): `CMD` stores the word; a running command drops it; an illegal word is
refused; a legal one names the command that `exec` submits. -/
def onCmdWrite (w : Word) (s : State) : State × Option Instr :=
  let s1 : State := State.respond { s with csr := writeCsr w s.csr .cmd } s.port.hrdata false
  if s1.engine.busy then (s1.dropBusy, none)
  else match decode w with
    | .ok i => (s1, some i)
    | .error .illegalOpcode => (s1.refuse .illegalOpcode, none)
    | .error .reservedBits => (s1.refuse .reservedBits, none)

/-! ## Block reset -/

/-- `RST_N` = 0: the block's state takes its reset values and its outputs are `IRQ` = 0, `HERR` = 0, `HRDATA` = 0; a
running command and a session are abandoned; the agents around the block keep what they had
(70_reset_and_hazards.md R170, R171; log 12). -/
def State.blockReset (s : State) : State :=
  { s with csr := .reset, engine := .reset, sess := .reset, mem := []
           port := { hrdata := 0, herr := false, rstN := false } }

/-- A change of the `RST_N` level (70_reset_and_hazards.md R170). -/
def State.setRstN (level : Bool) (s : State) : State :=
  if level then { s with port := { s.port with rstN := true } } else s.blockReset

/-! ## Whose turn it is -/

/-- The host write that submits the command word `w`: `WR32 CMD, w`. -/
def cmdWrite (w : Word) : HostEvent := .access { addr := 0, size := .word, write := true, data := w }

/-- `RD32 SEQ`. -/
def readSeq : HostEvent := .access { addr := 0x060, size := .word, write := false, data := 0 }

/-- The block's turn: a running command makes its next block step; an idle block, or one held in reset, does nothing
(60_exceptions.md R152, R169). -/
def blockTurn (s : State) : Host.Outcome (State × Option Instr) Fault Refusal :=
  if s.port.rstN && s.engine.busy then
    match instrOfOpcode s.engine.opc with
    | some i => .next (s, some i)
    | none => .fault .brokenProgress
  else .next (s, none)

/-- The host's pending events without the first. -/
def State.popHost (s : State) (rest : List HostEvent) : State := { s with env := { s.env with host := rest } }

/-- One step of the system but for the command it may run: the host's next event, or the block's turn. The answer names
the command that `exec` then submits or advances (log 1, log 2). -/
def turn (s : State) : Host.Outcome (State × Option Instr) Fault Refusal :=
  match s.env.host with
  | [] => blockTurn s
  | .pause :: rest => blockTurn (s.popHost rest)
  | .wait :: rest => if s.engine.busy then blockTurn s else .next (s.popHost rest, none)
  | .tickUntil g :: rest => .next (s.popHost (cmdWrite (encode .tick) :: .wait :: readSeq :: .untilState g :: rest), none)
  | .untilState g :: rest =>
    .next (if s.sess.state = g then s.popHost rest else s.popHost (.tickUntil g :: rest), none)
  | .rstN level :: rest => .next ((s.popHost rest).setRstN level, none)
  | .access x :: rest =>
    if isCmdWrite x (s.popHost rest) then .next (onCmdWrite x.data (s.popHost rest))
    else match hostAccess x (s.popHost rest) with
      | .next t => .next (t, none)
      | .fault f => .fault f
      | .refused r => .refused r

/-- The state from which the very next step submits the command word `w`: the host's next event is the `CMD` write, the
engine is idle and the block is out of reset (log 1). -/
def State.withCommand (s : State) (w : Word) : State :=
  { s with engine := .reset, port := { s.port with rstN := true }
           env := { s.env with host := cmdWrite w :: s.env.host } }

end Sys2Proof.Machine
end

