-- ==== Sys2Proof/Machine/Step.lean ====
section
/-! DEFINITION. The step of the whole system, and the state in which the next step runs a given command word. -/

namespace Sys2Proof.Machine

/-- One step: the agent whose turn it is moves (00_scope.md R6); a command it submits or advances is run by `exec`. -/
def step (s : State) : Host.Outcome State Fault Refusal :=
  match turn s with
  | .next (t, some i) => exec i t
  | .next (t, none) => .next t
  | .fault f => .fault f
  | .refused r => .refused r

/-- The state whose very next step submits the command word `w`, every bit above `nbits` zero (log 1). -/
def State.withFetchWord (s : State) (nbits w : Nat) : State := s.withCommand (BitVec.ofNat 32 (w % 2 ^ nbits))

end Sys2Proof.Machine
end

