-- ==== Sys2Proof/Machine/HostPrograms.lean ====
section
/-! DEFINITION. The host's pseudo-instructions (30_encoding.md R70, R71) as lists of host events. -/

namespace Sys2Proof.Machine

/-- `WR32 addr, v` (30_encoding.md R70). -/
def wr32 (addr : HostAddr) (v : Word) : HostEvent := .access { addr := addr, size := .word, write := true, data := v }

/-- `RD32 addr`. -/
def rd32 (addr : HostAddr) : HostEvent := .access { addr := addr, size := .word, write := false, data := 0 }

/-- `WR8 addr, v`. -/
def wr8 (addr : HostAddr) (v : Byte) : HostEvent :=
  .access { addr := addr, size := .byte, write := true, data := v.setWidth 32 }

/-- `RD8 addr`. -/
def rd8 (addr : HostAddr) : HostEvent := .access { addr := addr, size := .byte, write := false, data := 0 }

/-- `CLR mask`: `WR32 STATUS, mask` (30_encoding.md R71). -/
def clrStatus (mask : Word) : HostEvent := wr32 0x014 mask

/-- A command line: each written operand to its `ARGk`, in order, then `CMD` with the opcode (30_encoding.md R70). -/
def commandLine (i : Instr) (ops : List Word) : List HostEvent :=
  ops.zipWith (fun v k => wr32 (BitVec.ofNat 16 (4 + 4 * k)) v) [0, 1, 2, 3] ++ [cmdWrite (encode i)]

/-- `CALL MNEMONIC ops`: the command line, then `WAIT` (30_encoding.md R71). -/
def callCommand (i : Instr) (ops : List Word) : List HostEvent := commandLine i ops ++ [.wait]

/-- `SETB SPACE+off, b0, b1, …` (30_encoding.md R71). -/
def setBytes : HostAddr → List Byte → List HostEvent
  | _, [] => []
  | a, b :: bs => wr8 a b :: setBytes (a + 1) bs

/-- `TICKUNTIL S` (30_encoding.md R71). -/
def tickUntilState (target : SessState) : HostEvent := .tickUntil target

end Sys2Proof.Machine
end

