-- ==== Sys2Proof/Safety.lean ====
section
/-! DEFINITION. The terms that claims about the machine use: the invariant of every run, the program each command runs, a
whole command evaluated at once, the session's transition table, and where a fresh or running command stands. -/

namespace Sys2Proof.Machine

/-! ## Where a command stands -/

/-- The engine is idle (10_state.md R35). -/
def Idle (s : State) : Prop := s.engine.busy = false

/-- A command has been accepted and has made no block step yet. -/
def Fresh (s : State) : Prop := s.engine.busy = true ∧ s.engine.replies = []

/-- A command is running and has these replies so far. -/
def At (s : State) (replies : List Reply) : Prop := s.engine.busy = true ∧ s.engine.replies = replies

/-- The block has the next turn: nothing is pending at the host and the block is out of reset. -/
def BlockAlone (s : State) : Prop := s.env.host = [] ∧ s.port.rstN = true

/-- The program of each command (the family files' definitions). -/
def progOf (i : Instr) (s : State) : Prog :=
  match i with
  | .nop => nopProg s
  | .wreg => wregProg s
  | .rreg => rregProg s
  | .rburst => rburstProg s
  | .wburst => wburstProg s
  | .strobe => strobeProg s
  | .reset => resetProg s
  | .probe => probeProg s
  | .configure => configureProg s
  | .enterRx => enterRxProg s
  | .init => initProg s
  | .diag => diagProg s
  | .rssiDbm => rssiDbmProg s
  | .freqWord => freqWordProg s
  | .freqHz => freqHzProg s
  | .crc16 => crc16Prog s
  | .buildReq => buildReqProg s
  | .encode => encodeProg s
  | .decode => decodeProg s
  | .sentchk => sentchkProg s
  | .extract => extractProg s
  | .startRead => startReadProg s
  | .tick => tickProg s

/-- The command's own checks (the family files' definitions). -/
def checkOf (i : Instr) (s : State) : Option ErrCode :=
  match i with
  | .nop => noCheck s
  | .wreg => wregCheck s
  | .rreg => rregCheck s
  | .rburst => rburstCheck s
  | .wburst => wburstCheck s
  | .strobe => strobeCheck s
  | .reset => noCheck s
  | .probe => noCheck s
  | .configure => noCheck s
  | .enterRx => noCheck s
  | .init => noCheck s
  | .diag => noCheck s
  | .rssiDbm => rssiDbmCheck s
  | .freqWord => noCheck s
  | .freqHz => freqHzCheck s
  | .crc16 => crc16Check s
  | .buildReq => noCheck s
  | .encode => encodeCheck s
  | .decode => decodeCheck s
  | .sentchk => sentchkCheck s
  | .extract => extractCheck s
  | .startRead => startReadCheck s
  | .tick => noCheck s

/-- A program evaluated in one go, with no step of another agent between its transactions. -/
def Prog.evalAll : Prog → State → Host.Outcome State Fault Refusal
  | .done fx, s => .next (fx s).complete
  | .stop f, _ => .fault f
  | .bus out k, s => (k (s.busTxn out).1).evalAll (s.busTxn out).2
  | .clock k, s => (k s.env.readClock.1).evalAll { s with env := s.env.readClock.2 }
  | .level k, s => (k s.env.drawLevel.1).evalAll { s with env := s.env.drawLevel.2 }
  | .csr f k, s => (k (f s.csr)).evalAll s
  | .again n, s => .next (s.keepReplies n)

/-- The CSRs and the engine of a command that has completed and left the CSRs `c`: `DONE` set and the engine idle, with
every other field of `s` (60_exceptions.md R153; the engine's latches stay, log 14). -/
def State.completeWith (s : State) (c : Csrs) : State :=
  { s with csr := { c with status := { c.status with done := true } }
           engine := { s.engine with busy := false, replies := [] } }

/-- A block step that makes one transaction and leaves the command running: the answer is remembered (log 3). -/
def State.exchange (s : State) (out : List Byte) : State := (s.busTxn out).2.record (.bytes (s.busTxn out).1)

/-- The second byte that a transaction would get back: the value of a single read (40_bus_access.md R75). -/
def State.answer (s : State) (out : List Byte) : Byte := (s.busTxn out).1.getD 1 0

/-- The state after a transaction, the answer aside. -/
def State.after (s : State) (out : List Byte) : State := (s.busTxn out).2

/-- Some transactions made one after the other; the answers are not used. -/
def busTxns (s : State) (outs : List (List Byte)) : State := outs.foldl (fun t out => (t.busTxn out).2) s

/-- Replies that are all answers of bus transactions, whatever the answers. -/
def AllBytes (rs : List Reply) : Prop := ∀ r ∈ rs, ∃ bs, r = .bytes bs

/-- The six replies of one failed identity attempt and the reset after it: two reads whose bytes are no valid
identity, then the four transactions of `ResetSeq()` (41_rf_lifecycle.md R82, R83). -/
def FailedAttempt (rs : List Reply) : Prop :=
  ∃ x0 y0 x1 y1 r0 r1 r2 r3, badIdentity y0 y1 = true ∧
    rs = [.bytes [x0, y0], .bytes [x1, y1], .bytes r0, .bytes r1, .bytes r2, .bytes r3]

/-- `n` failed identity attempts in a row. -/
def FailedAttempts : Nat → List Reply → Prop
  | 0, rs => rs = []
  | n + 1, rs => ∃ a b, FailedAttempt a ∧ FailedAttempts n b ∧ rs = a ++ b

/-- The transactions of `ApplySeq` (40_bus_access.md R75). -/
def seqTxns (p : Params) (l : List (ChipAddr × Byte)) : List (List Byte) := l.map fun e => singleWrite p e.1 e.2

/-- The transactions of `ResetSeq()` (41_rf_lifecycle.md R82). -/
def resetTxns (p : Params) : List (List Byte) :=
  [[], strobeTxn p .reset, strobeTxn p .flushRx, strobeTxn p .flushTx]

/-- The transactions of `Configure(hz)` with the frequency word `w` (41_rf_lifecycle.md R89). -/
def configureTxns (p : Params) (w : BitVec 24) : List (List Byte) :=
  seqTxns p p.cfgTable ++
    [singleWrite p p.freqAddrTop (w.extractLsb' 16 8), singleWrite p p.freqAddrMid (w.extractLsb' 8 8),
     singleWrite p p.freqAddrLow (w.extractLsb' 0 8), singleWrite p p.paAddr p.paMin]

/-- `m'` is `m` with the bytes `bs` stored from address `a` on, and every other byte as before. -/
def Stored (m m' : Memory) (a : Nat) (bs : List Byte) : Prop :=
  (∀ i, i < bs.length → m'.read (a + i) = bs[i]?) ∧
  ∀ x, (x < a ∨ a + bs.length ≤ x) → m'.read x = m.read x

/-! ## A tick -/

/-- A `TICK` has been accepted and has made no block step yet, the session is in the state `st`, and nothing is pending
at the host. -/
def Ticking (st : SessState) (s : State) : Prop :=
  BlockAlone s ∧ Fresh s ∧ s.engine.opc = opcodeOf .tick ∧ s.sess.state = st

/-- Some number of steps leads from `s` to `t`. -/
def RunsTo (s t : State) : Prop := ∃ n, Host.Core.run Sys2Proof.core n s = .next t

/-- The reading that the tick takes (45_read_sequencer.md R129). -/
def State.tickNow (s : State) : Word := s.env.readClock.1

/-- The state once the tick has taken its reading. -/
def State.ticked (s : State) : State := { s with env := s.env.readClock.2 }

/-- The end of a tick: the session is `x`, `RESULT0` its state, `RESULT1` whether a transition was made, and the command
has completed (45_read_sequencer.md R129, 60_exceptions.md R153). -/
def State.tickEnd (s : State) (x : Session) (moved : Bool) : State :=
  State.completeWith { s with sess := x }
    { s.csr with result0 := (sessNumber x.state).setWidth 32, result1 := if moved then 1 else 0 }

/-! ## The invariant of every run -/

/-- What a session keeps: while the request is sent, all 39 bytes are in TXB and at most 39 count as sent
(45_read_sequencer.md R135, R136); while the reply is received, no more than the target has come, and what has come is in
RAWB (R141, R143, R144). -/
def SessionInv (s : State) : Prop :=
  (s.sess.state = .streamRequest →
    s.sess.reqLen = 39 ∧ s.sess.sent.toNat ≤ 39 ∧ ∀ i, i < 39 → (s.mem.read (0x1000 + i)).isSome = true) ∧
  (s.sess.state = .dataWaitSync2 → s.sess.recv = 0) ∧
  (s.sess.state = .dataFetch2 ∨ s.sess.state = .decode →
    s.sess.recv.toNat ≤ s.sess.target.toNat ∧
      ∀ i, i < s.sess.recv.toNat → (s.mem.read (0x2000 + i)).isSome = true)

/-- What every run keeps: the buffers are in canonical form; `IEN` holds nothing outside its six bits; an idle engine
has no progress; a running command is one of the opcode map, and during a session one of the five that a session admits
(60_exceptions.md R152); the session keeps `SessionInv`; a block held in reset is in its reset state
(70_reset_and_hazards.md R170). -/
def Inv (s : State) : Prop :=
  s.mem.wf ∧
  s.csr.ien &&& ~~~ienMask = 0 ∧
  (s.engine.busy = false → s.engine.replies = []) ∧
  (s.engine.busy = true →
    ∃ i, s.engine.opc = opcodeOf i ∧ (s.sess.state ≠ .idle → allowedInSession i = true)) ∧
  SessionInv s ∧
  (s.port.rstN = false → s.csr = .reset ∧ s.engine = .reset ∧ s.sess = .reset ∧ s.mem = [])

/-! ## The session's transition table -/

/-- The transitions of 45_read_sequencer.md R131, with the failure code a transition to Fail records. -/
def sessionEdge (a b : SessState) (code : FailCode) : Bool :=
  match a, b with
  | .idle, .startPreamble => true
  | .startPreamble, .streamPreamble => true
  | .streamPreamble, .guardBeforeReq => true
  | .guardBeforeReq, .startRequest => true
  | .startRequest, .streamRequest => true
  | .streamRequest, .waitTxFinish => true
  | .streamRequest, .fail => code == .txStreamTimeout
  | .waitTxFinish, .dataSetupStage1 => true
  | .waitTxFinish, .fail => code == .txDrainTimeout
  | .dataSetupStage1, .dataWaitSync1 => true
  | .dataWaitSync1, .dataFetch1 => true
  | .dataFetch1, .dataSetupStage2 => true
  | .dataSetupStage2, .dataWaitSync2 => true
  | .dataWaitSync2, .dataFetch2 => true
  | .dataWaitSync2, .fail => code == .sync2Timeout
  | .dataFetch2, .decode => true
  | .dataFetch2, .fail => code == .noSentinel || code == .fetch2Timeout
  | .decode, .publish => true
  | .decode, .fail => code == .shortFrame || code == .implausible
  | .publish, .idle => true
  | .fail, .idle => true
  | _, _ => false

/-! ## The register map -/

/-- The control and status registers and their offsets, as the table of 10_state.md R18 lists them. -/
def csrMap : List (Nat × Csr) :=
  [(0x000, .cmd), (0x004, .arg0), (0x008, .arg1), (0x00C, .arg2), (0x010, .arg3), (0x014, .status), (0x018, .result0),
   (0x01C, .result1), (0x020, .ien), (0x024, .blkid), (0x028, .now), (0x030, .meterId), (0x034, .freq), (0x038, .tAck),
   (0x03C, .tData), (0x040, .tPreamble), (0x044, .tPace), (0x048, .tGuard), (0x04C, .tTxStream), (0x050, .tTxDrain),
   (0x054, .frameSize), (0x058, .freqWordCur), (0x060, .seq), (0x064, .seqT0), (0x068, .seqTx), (0x06C, .seqRx),
   (0x070, .seqPre), (0x074, .seqTPace), (0x080, .rdLiters), (0x084, .rdFields), (0x088, .rdLink), (0x08C, .rdValid),
   (0x090, .learnWin)]

/-! ## What a captured stream says

The decoder's rules without its counters: the runs of the samples, the logical bits they stand for, and where in those
bits the bytes begin. -/

/-- The samples of `src` in scanning order, most significant bit of each byte first (44_decoder.md R112). -/
def sampleAt (src : List Byte) (i : Nat) : Bool := (src.getD (i / 8) 0).getLsbD (7 - i % 8)

/-- `runs` are the runs of the samples `xs`: lengths and levels of the maximal sequences of one level
(44_decoder.md R112). -/
def RunsOf (xs : List Bool) (runs : List (Nat × Bool)) : Prop :=
  runs.flatMap (fun r => List.replicate r.1 r.2) = xs ∧ (∀ r ∈ runs, 0 < r.1) ∧
  ∀ i a b, runs[i]? = some a → runs[i + 1]? = some b → a.2 ≠ b.2

/-- The logical bits of some runs after the remainder `rem`: each length with the remainder is divided by 4 to the
nearest, ties up, and the new remainder is carried on (44_decoder.md R114). -/
def quantised : Int → List (Nat × Bool) → List Bool
  | _, [] => []
  | rem, (c, lvl) :: rest =>
    let k := (c + rem + 2) / 4
    List.replicate k.toNat lvl ++ quantised (c + rem - 4 * k) rest

/-- `starts` are the places in the logical bits where a byte begins, in order. The first byte begins with the first bit;
a byte is followed by a set stop bit at its tenth place, and the next byte begins with the first clear bit after that.
With `stopped` the last byte's tenth place is clear; without, no byte begins after the last one
(44_decoder.md R115 to R118). -/
def ByteStarts (bits : List Bool) (starts : List Nat) (stopped : Bool) : Prop :=
  starts[0]? = some 0 ∧
  (∀ j f g, starts[j]? = some f → starts[j + 1]? = some g →
    f + 10 ≤ g ∧ bits[f + 9]? = some true ∧ bits[g]? = some false ∧
    ∀ i, f + 10 ≤ i → i < g → bits[i]? = some true) ∧
  ∀ f, starts.getLast? = some f →
    if stopped then bits[f + 9]? = some false
    else ∀ i, f + 9 ≤ i → bits[i]? ≠ some false

/-- The byte that begins at place `f`: its data bits are the next eight, least significant first; where the bits end
before that, those that came stand at the top and the rest is 0 (44_decoder.md R115, R120). -/
def byteFrom (bits : List Bool) (f : Nat) (b : Byte) : Prop :=
  let n := min 8 (bits.length - (f + 1))
  ∀ t, t < 8 → b.getLsbD t = if 8 - n ≤ t then bits.getD (f + 1 + (t - (8 - n))) false else false

end Sys2Proof.Machine
end

