-- ==== Sys2Proof/Certificates/Slice0/Obligations.lean ====
section
/-! DEFINITION. The statements for the provers. Each docstring names the rules of spec/ that the statement formalises, or
the log entry where it states a choice of the model. -/

open Sys2Proof Sys2Proof.Machine

/-! ## Encoding and submission -/

/-- The decoder accepts exactly the words of the opcode map, and names the reason for every other word
(30_encoding.md R57, R59, R60). -/
def Obligations.DecodeExactlyTheOpcodeMap : Prop :=
  let legal : List Nat := [0x00, 0x01, 0x02, 0x03, 0x04, 0x05, 0x10, 0x11, 0x12, 0x13, 0x14, 0x15, 0x16, 0x17, 0x18,
    0x20, 0x21, 0x22, 0x23, 0x24, 0x25, 0x30, 0x31]
  (∀ (w : Word) (i : Instr), decode w = .ok i ↔ w = encode i) ∧
  (∀ w : Word, decode w = .error .illegalOpcode ↔ w.toNat % 256 ∉ legal) ∧
  (∀ w : Word, decode w = .error .reservedBits ↔ w.toNat % 256 ∈ legal ∧ 256 ≤ w.toNat)

/-- Words written out from the opcode map, one of each family (30_encoding.md R59, R60). -/
def Obligations.SampleWordsDecode : Prop :=
  decode 0b00000000000000000000000000000011#32 = .ok .rburst ∧
  decode 0b00000000000000000000000000010100#32 = .ok .init ∧
  decode 0b00000000000000000000000000100000#32 = .ok .crc16 ∧
  decode 0b00000000000000000000000000100010#32 = .ok .encode ∧
  decode 0b00000000000000000000000000100011#32 = .ok .decode ∧
  decode 0b00000000000000000000000000110001#32 = .ok .tick ∧
  decode 0b00000000000000000000000000000000#32 = .ok .nop ∧
  decode 0b00000000000000000000000000000110#32 = .error .illegalOpcode ∧
  decode 0b00000000000000000000000100000000#32 = .error .reservedBits

/-- A step at a host write of `CMD`: the word is stored; a running command drops it, an illegal word is refused, a legal
one is the instruction that `exec` submits. A step at the block's turn runs the command in progress, or nothing
(60_exceptions.md R152, R155; the turn's place in the host's events is the model's choice, log 1 and log 2, and so is
`HRDATA` after a write, log 13). -/
def Obligations.StepRunsTheDecodedCommand : Prop :=
  (∀ (s : State) (w : Word) (rest : List HostEvent), s.port.rstN = true → s.env.host = wr32 0x000 w :: rest →
    let u : State := { s with csr := { s.csr with cmd := w }, port := { s.port with herr := false }
                              env := { s.env with host := rest } }
    step s =
      if s.engine.busy then
        .next { u with csr := { u.csr with status := { u.csr.status with err := true, errcode := .busy } } }
      else match decode w with
        | .ok i => exec i u
        | .error .illegalOpcode =>
          .next { u with csr := { u.csr with status :=
            { u.csr.status with done := true, err := true, errcode := .illegalOpcode } } }
        | .error .reservedBits =>
          .next { u with csr := { u.csr with status :=
            { u.csr.status with done := true, err := true, errcode := .reservedBits } } }) ∧
  (∀ (s : State) (i : Instr), BlockAlone s → s.engine.opc = opcodeOf i →
    step s = if s.engine.busy then exec i s else .next s)

/-- The checks of a decoded command and their order, what a refusal changes, and what acceptance latches; ten commands
have no check of their own (60_exceptions.md R152, R154, R155, R156). -/
def Obligations.SubmissionRefusesOrLatches : Prop :=
  (∀ (i : Instr) (s : State), Idle s →
    let refused (code : ErrCode) : State :=
      { s with csr := { s.csr with status := { s.csr.status with done := true, err := true, errcode := code } } }
    exec i s = .next (
      if s.sess.state ≠ .idle ∧ i ∉ [.nop, .tick, .rssiDbm, .freqWord, .freqHz] then refused .busy
      else match checkOf i s with
        | some code => refused code
        | none =>
          { s with engine := { busy := true, opc := opcodeOf i, args := s.csr.args, t0 := s.env.readClock.1, replies := [] }
                   env := s.env.readClock.2 })) ∧
  ∀ (i : Instr) (s : State),
    i ∈ [.reset, .probe, .configure, .enterRx, .init, .diag, .freqWord, .buildReq, .nop, .tick] → checkOf i s = none

/-- The byte lists of the transaction forms (30_encoding.md R64, 40_bus_access.md R75). -/
def Obligations.BusTransactionForms : Prop :=
  ∀ (p : Params) (a : ChipAddr) (v : Byte) (n : Nat) (data : List Byte),
    let h : Byte := a.setWidth 8
    singleWrite p a v = [h ||| p.opWrite, v] ∧
    ((a.toNat < 0x30 ∨ 0x3D < a.toNat) → singleRead p a = [h ||| p.opRead, 0x00]) ∧
    (0x30 ≤ a.toNat → a.toNat ≤ 0x3D → singleRead p a = [h ||| (p.opRead ||| p.opBurst), 0x00]) ∧
    burstRead p a n = [h ||| (p.opRead ||| p.opBurst)] ++ List.replicate n 0x00 ∧
    burstWrite p a data = [h ||| (p.opWrite ||| p.opBurst)] ++ data ∧
    (∀ k, k < 7 →
      let c := p.strobeCode
      (strobeOfIndex k).map (strobeTxn p) =
        some [([c.reset, c.flushRx, c.flushTx, c.idle, c.rx, c.tx, c.nop].getD k 0).setWidth 8 ||| p.opWrite])

/-! ## The command engine -/

/-- A block step that leaves the command running shows the host nothing; the one that completes it sets `DONE`, leaves
`ERR`, `ERRCODE` and every register that only the host writes, and makes the engine idle
(20_memory.md R51, 60_exceptions.md R153). That the engine's latches and the port's outputs keep their values is the
model's choice (log 14, log 25). -/
def Obligations.EffectsShowOnlyAtCompletion : Prop :=
  ∀ (i : Instr) (s t : State), s.engine.busy = true → exec i s = .next t →
    t.params = s.params ∧ t.port = s.port ∧ t.env.host = s.env.host ∧
    t.engine = { s.engine with busy := t.engine.busy, replies := t.engine.replies } ∧
    (t.engine.busy = true → t.csr = s.csr ∧ t.sess = s.sess ∧ t.mem = s.mem) ∧
    (t.engine.busy = false →
      t.engine.replies = [] ∧ t.csr.status.done = true ∧
      t.csr.status.err = s.csr.status.err ∧ t.csr.status.errcode = s.csr.status.errcode ∧
      t.csr.status.hflt = s.csr.status.hflt ∧ t.csr.cmd = s.csr.cmd ∧ t.csr.args = s.csr.args ∧
      t.csr.ien = s.csr.ien ∧ t.csr.meterId = s.csr.meterId ∧ t.csr.freq = s.csr.freq ∧
      t.csr.budgets = s.csr.budgets ∧ t.csr.frameSize = s.csr.frameSize)

/-- A step makes at most one bus transaction (00_scope.md R6). -/
def Obligations.AtMostOneTransactionPerStep : Prop :=
  ∀ s t : State, step s = .next t →
    t.env.busLog = s.env.busLog ∨ ∃ out, t.env.busLog = s.env.busLog ++ [out]

/-- With nothing pending at the host, the block steps of an accepted command lead to what the command's program gives
when it is evaluated in one go: cutting a command into block steps changes nothing (60_exceptions.md R152, R153; the
block step's size is the model's choice, log 3 and log 18). `ENTER_RX` polls without a fixed bound and is left out. -/
def Obligations.CommandStepsRefineTheirProgram : Prop :=
  ∀ (i : Instr) (s : State), i ≠ .enterRx → BlockAlone s → Fresh s → s.engine.opc = opcodeOf i →
    ∃ n, Host.Core.run Sys2Proof.core n s = (progOf i s).evalAll s

/-! ## Bus access commands -/

/-- `WREG` (40_bus_access.md R77). What one block step holds is the model's choice (log 3). -/
def Obligations.WregWritesOneRegister : Prop :=
  decode 0x01 = .ok .wreg ∧
  (∀ s : State, Idle s →
    exec .wreg s = .next (
      if s.sess.state ≠ .idle then s.refuse .busy
      else if 64 ≤ s.csr.args.a0.toNat ∨ 256 ≤ s.csr.args.a1.toNat then s.refuse .badOperand
      else if 0x30 ≤ s.csr.args.a0.toNat ∧ s.csr.args.a0.toNat ≤ 0x3D then s.refuse .badOperand
      else s.accept .wreg)) ∧
  (∀ s : State, Fresh s →
    exec .wreg s = .next
      ((s.after (singleWrite s.params (s.engine.args.a0.extractLsb' 0 6) (s.engine.args.a1.extractLsb' 0 8))).completeWith
        s.csr))

/-- `RREG` (40_bus_access.md R78). What one block step holds is the model's choice (log 3). -/
def Obligations.RregReadsOneRegister : Prop :=
  decode 0x02 = .ok .rreg ∧
  (∀ s : State, Idle s →
    exec .rreg s = .next (
      if s.sess.state ≠ .idle then s.refuse .busy
      else if 64 ≤ s.csr.args.a0.toNat then s.refuse .badOperand
      else s.accept .rreg)) ∧
  (∀ s : State, Fresh s →
    let out := singleRead s.params (s.engine.args.a0.extractLsb' 0 6)
    exec .rreg s = .next ((s.after out).completeWith { s.csr with result0 := (s.answer out).setWidth 32 }))

/-- `RBURST` (40_bus_access.md R79). What one block step holds is the model's choice (log 3). -/
def Obligations.RburstReadsIntoScratch : Prop :=
  decode 0x03 = .ok .rburst ∧
  (∀ s : State, Idle s →
    let a0 := s.csr.args.a0.toNat
    let n := s.csr.args.a1.toNat
    exec .rburst s = .next (
      if s.sess.state ≠ .idle then s.refuse .busy
      else if 64 ≤ a0 then s.refuse .badOperand
      else if 0x30 ≤ a0 ∧ a0 ≤ 0x3D ∧ 1 < n then s.refuse .badOperand
      else if n = 0 ∨ 256 < n then s.refuse .range
      else s.accept .rburst)) ∧
  (∀ s : State, Fresh s → s.engine.args.a1.toNat ≤ 256 →
    let out := burstRead s.params (s.engine.args.a0.extractLsb' 0 6) s.engine.args.a1.toNat
    ∃ t, exec .rburst s = .next t ∧
      t = State.completeWith { s.after out with mem := t.mem } { s.csr with result0 := s.engine.args.a1 } ∧
      ((s.busTxn out).1.drop 1).length = s.engine.args.a1.toNat ∧
      Stored s.mem t.mem 0x4000 ((s.busTxn out).1.drop 1))

/-- `WBURST` (40_bus_access.md R80): the bytes are those of XB, and an unwritten one is the model fault READ_UNWRITTEN
(20_memory.md R48). What one block step holds is the model's choice (log 3). -/
def Obligations.WburstSendsScratch : Prop :=
  decode 0x04 = .ok .wburst ∧
  (∀ s : State, Idle s →
    let a0 := s.csr.args.a0.toNat
    let n := s.csr.args.a1.toNat
    exec .wburst s = .next (
      if s.sess.state ≠ .idle then s.refuse .busy
      else if 64 ≤ a0 then s.refuse .badOperand
      else if 0x30 ≤ a0 ∧ a0 ≤ 0x3D then s.refuse .badOperand
      else if n = 0 ∨ 256 < n then s.refuse .range
      else s.accept .wburst)) ∧
  (∀ (s : State) (bs : List Byte), Fresh s → s.engine.args.a1.toNat ≤ 256 →
    s.readBytes 0x4000 s.engine.args.a1.toNat = some bs →
    exec .wburst s = .next
      ((s.after (burstWrite s.params (s.engine.args.a0.extractLsb' 0 6) bs)).completeWith
        { s.csr with result0 := s.engine.args.a1 })) ∧
  (∀ s : State, Fresh s → s.engine.args.a1.toNat ≤ 256 →
    s.readBytes 0x4000 s.engine.args.a1.toNat = none → exec .wburst s = .fault .readUnwritten)

/-- `STROBE` (40_bus_access.md R81). What one block step holds is the model's choice (log 3). -/
def Obligations.StrobeSendsOneByte : Prop :=
  decode 0x05 = .ok .strobe ∧
  (∀ s : State, Idle s →
    exec .strobe s = .next (
      if s.sess.state ≠ .idle then s.refuse .busy
      else if 7 ≤ s.csr.args.a0.toNat then s.refuse .range
      else s.accept .strobe)) ∧
  (∀ s : State, Fresh s → s.engine.args.a0.toNat ≤ 6 →
    let c := s.params.strobeCode
    let code := [c.reset, c.flushRx, c.flushTx, c.idle, c.rx, c.tx, c.nop].getD s.engine.args.a0.toNat 0
    exec .strobe s = .next
      ((s.after [code.setWidth 8 ||| s.params.opWrite]).completeWith
        { s.csr with status :=
          { s.csr.status with conf := if s.engine.args.a0 = 0 then false else s.csr.status.conf } }))

/-! ## RF lifecycle commands -/

/-- `RESET`: four transactions, one in each block step, then completion with `CONF` = 0 (41_rf_lifecycle.md R82, R90).
What one block step holds is the model's choice (log 3). -/
def Obligations.ResetRunsFourTransactions : Prop :=
  decode 0x10 = .ok .reset ∧
  (∀ s : State, Idle s →
    exec .reset s = .next (if s.sess.state ≠ .idle then s.refuse .busy else s.accept .reset)) ∧
  ∀ (s : State) (rs : List Reply), At s rs → AllBytes rs →
    let outs := resetTxns s.params
    (∀ k out, rs.length = k → k < 3 → outs[k]? = some out → exec .reset s = .next (s.exchange out)) ∧
    (∀ out, rs.length = 3 → outs[3]? = some out →
      exec .reset s = .next
        ((s.after out).completeWith { s.csr with status := { s.csr.status with conf := false } }))

/-- `PROBE` (41_rf_lifecycle.md R83, R91): after `n` failed attempts, with a reset after each, the two identity reads of
the next attempt; success or the third failure completes the command, and another failure goes on to a reset.
What one block step holds is the model's choice (log 3). -/
def Obligations.ProbeReadsTheIdentityUpToThreeTimes : Prop :=
  decode 0x11 = .ok .probe ∧
  (∀ s : State, Idle s →
    exec .probe s = .next (if s.sess.state ≠ .idle then s.refuse .busy else s.accept .probe)) ∧
  ∀ (s : State) (n : Nat) (pre : List Reply), n ≤ 2 → FailedAttempts n pre →
    (At s pre → exec .probe s = .next (s.exchange (singleRead s.params s.params.idAddr0))) ∧
    (∀ x id0 : Byte, At s (pre ++ [.bytes [x, id0]]) →
      let out := singleRead s.params s.params.idAddr1
      let id1 := s.answer out
      let bad := (id0 = 0xFF ∧ id1 = 0xFF) ∨ (id0 = 0x00 ∧ id1 = 0x00)
      exec .probe s = .next (
        if bad ∧ n < 2 then s.exchange out
        else (s.after out).completeWith
          { s.csr with
            result0 := 0#15 ++ (if bad then 0#1 else 1#1) ++ id1 ++ id0
            result1 := BitVec.ofNat 32 (n + 1)
            status := { s.csr.status with chip := decide ¬bad, conf := if n = 0 then s.csr.status.conf else false } })) ∧
    (∀ (x id0 y id1 : Byte) (rs : List Reply) (out : List Byte), n < 2 → badIdentity id0 id1 = true → AllBytes rs →
      (resetTxns s.params)[rs.length]? = some out →
      At s (pre ++ [.bytes [x, id0], .bytes [y, id1]] ++ rs) → exec .probe s = .next (s.exchange out))

/-- `CONFIGURE` (41_rf_lifecycle.md R84, R89, R92): the configuration table, the three frequency bytes and the transmit
power, one register write in each block step. What one block step holds is the model's choice (log 3). -/
def Obligations.ConfigureWritesTableFrequencyAndPower : Prop :=
  decode 0x12 = .ok .configure ∧
  (∀ s : State, Idle s →
    exec .configure s = .next (if s.sess.state ≠ .idle then s.refuse .busy else s.accept .configure)) ∧
  ∀ (s : State) (rs : List Reply) (out : List Byte), At s rs → AllBytes rs →
    let w : BitVec 24 := BitVec.ofNat 24 (freqWord s.engine.args.a0.toNat)
    let outs := configureTxns s.params w
    outs[rs.length]? = some out →
    exec .configure s = .next (
      if rs.length + 1 < outs.length then s.exchange out
      else (s.after out).completeWith
        { s.csr with freqWordCur := w, result0 := w.setWidth 32, status := { s.csr.status with conf := true } })

/-- `ENTER_RX` (41_rf_lifecycle.md R93): two strobes, then a poll in each block step; the state is tested before the
300 ms, measured from the command's acceptance. What one block step holds is the model's choice (log 3). -/
def Obligations.EnterRxStrobesThenPolls : Prop :=
  decode 0x13 = .ok .enterRx ∧
  (∀ s : State, Idle s →
    exec .enterRx s = .next (if s.sess.state ≠ .idle then s.refuse .busy else s.accept .enterRx)) ∧
  ∀ s : State,
    (At s [] → exec .enterRx s = .next (s.exchange (strobeTxn s.params .idle))) ∧
    (∀ a, At s [.bytes a] → exec .enterRx s = .next (s.exchange (strobeTxn s.params .rx))) ∧
    (∀ a b, At s [.bytes a, .bytes b] →
      let out := singleRead s.params s.params.marcAddr
      let st : BitVec 5 := (s.answer out).extractLsb' 0 5
      let u := (s.after out).ticked
      let now := (s.after out).tickNow
      exec .enterRx s = .next (
        if st ∈ s.params.rxStates then
          (s.after out).completeWith { s.csr with result0 := st.setWidth 32, result1 := 1 }
        else if 300 ≤ (now - s.engine.t0).toNat then
          u.completeWith { s.csr with result0 := st.setWidth 32, result1 := 0 }
        else u))

/-- `INIT` (41_rf_lifecycle.md R94) in the probe's attempt `n` + 1: the two identity reads; another failure goes on to a
reset's four transactions as in `PROBE`, the third failure completes with `RESULT1` = 0, a success goes on to configure
with `FREQ`, and the last of the configuration's transactions completes the command. That `FREQ` is read when the probe
has ended is the model's reading of the rule (log 17). What one block step holds is the model's choice (log 3). -/
def Obligations.InitProbesThenConfigures : Prop :=
  decode 0x14 = .ok .init ∧
  (∀ s : State, Idle s →
    exec .init s = .next (if s.sess.state ≠ .idle then s.refuse .busy else s.accept .init)) ∧
  ∀ (s : State) (n : Nat) (pre : List Reply), n ≤ 2 → FailedAttempts n pre →
    let chipWord (ok : Bool) (id0 id1 : Byte) : Word := 0#15 ++ (if ok then 1#1 else 0#1) ++ id1 ++ id0
    (At s pre → exec .init s = .next (s.exchange (singleRead s.params s.params.idAddr0))) ∧
    (∀ x id0 : Byte, At s (pre ++ [.bytes [x, id0]]) →
      let out := singleRead s.params s.params.idAddr1
      let id1 := s.answer out
      let bad := (id0 = 0xFF ∧ id1 = 0xFF) ∨ (id0 = 0x00 ∧ id1 = 0x00)
      exec .init s = .next (
        if ¬bad then (s.exchange out).record (.word s.csr.freq)
        else if n < 2 then s.exchange out
        else (s.after out).completeWith
          { s.csr with result0 := chipWord false id0 id1, result1 := 0
                       status := { s.csr.status with chip := false, conf := false } })) ∧
    (∀ (x id0 y id1 : Byte) (rs : List Reply) (out : List Byte), n < 2 → badIdentity id0 id1 = true → AllBytes rs →
      (resetTxns s.params)[rs.length]? = some out →
      At s (pre ++ [.bytes [x, id0], .bytes [y, id1]] ++ rs) → exec .init s = .next (s.exchange out)) ∧
    (∀ (x id0 y id1 : Byte) (hz : Word) (rs : List Reply) (out : List Byte), badIdentity id0 id1 = false → AllBytes rs →
      At s (pre ++ [.bytes [x, id0], .bytes [y, id1], .word hz] ++ rs) →
      let w : BitVec 24 := BitVec.ofNat 24 (freqWord hz.toNat)
      let outs := configureTxns s.params w
      outs[rs.length]? = some out →
      exec .init s = .next (
        if rs.length + 1 < outs.length then s.exchange out
        else (s.after out).completeWith
          { s.csr with result0 := chipWord true id0 id1, result1 := w.setWidth 32, freqWordCur := w
                       status := { s.csr.status with chip := true, conf := true } }))

/-- `DIAG` (41_rf_lifecycle.md R95): fourteen single reads in ascending order, then the bytes in XB.
What one block step holds is the model's choice (log 3). -/
def Obligations.DiagReadsTheStatusRegisters : Prop :=
  decode 0x15 = .ok .diag ∧
  (∀ s : State, Idle s →
    exec .diag s = .next (if s.sess.state ≠ .idle then s.refuse .busy else s.accept .diag)) ∧
  ∀ (s : State) (got : List (Byte × Byte)), At s (got.map fun e => .bytes [e.1, e.2]) → got.length ≤ 13 →
    let out := [BitVec.ofNat 8 (0x30 + got.length) ||| (s.params.opRead ||| s.params.opBurst), 0x00]
    (got.length < 13 → exec .diag s = .next (s.exchange out)) ∧
    (got.length = 13 → ∃ t, exec .diag s = .next t ∧
      t = State.completeWith { s.after out with mem := t.mem } { s.csr with result0 := 14 } ∧
      Stored s.mem t.mem 0x4000 (got.map Prod.snd ++ [s.answer out]))

/-- `RSSI_DBM` (41_rf_lifecycle.md R88, R96). What one block step holds is the model's choice (log 18). -/
def Obligations.RssiDbmIsTwiceTheDbmValue : Prop :=
  decode 0x16 = .ok .rssiDbm ∧
  (∀ s : State, Idle s →
    exec .rssiDbm s = .next (
      if 256 ≤ s.csr.args.a0.toNat then s.refuse .badOperand else s.accept .rssiDbm)) ∧
  (∀ s : State, Fresh s →
    let raw : Nat := s.engine.args.a0.toNat % 256
    let x2 : Int := (if 128 ≤ raw then (raw : Int) - 256 else raw) - 148
    x2 ≥ -276 ∧ x2 ≤ -21 ∧
    exec .rssiDbm s = .next (s.completeWith { s.csr with result0 := BitVec.ofInt 32 x2 }))

/-- `FREQ_WORD` and `FREQ_HZ`, and their round trip (41_rf_lifecycle.md R84, R86, R87, R97, R98).
What one block step holds is the model's choice (log 18). -/
def Obligations.FrequencyConversionsRoundToNearest : Prop :=
  decode 0x17 = .ok .freqWord ∧ decode 0x18 = .ok .freqHz ∧
  (∀ n : Nat, freqWord n = (n * 65536 + 13000000) / 26000000 ∧ freqHz n = (n * 26000000 + 32768) / 65536 ∧
    freqRem n = (n * 26000000) % 65536) ∧
  (∀ s : State, Idle s →
    exec .freqWord s = .next (s.accept .freqWord) ∧
    exec .freqHz s = .next (
      if 0x1000000 ≤ s.csr.args.a0.toNat then s.refuse .badOperand
      else if 0xA530E8 < s.csr.args.a0.toNat then s.refuse .range
      else s.accept .freqHz)) ∧
  (∀ s : State, Fresh s →
    let hz := s.engine.args.a0.toNat
    freqWord hz ≤ 0xA530E9 ∧
    exec .freqWord s = .next (s.completeWith { s.csr with result0 := BitVec.ofNat 32 (freqWord hz) })) ∧
  (∀ s : State, Fresh s → s.engine.args.a0.toNat ≤ 0xA530E8 →
    let w := s.engine.args.a0.toNat
    freqHz w < 2 ^ 32 ∧
    exec .freqHz s = .next (s.completeWith
      { s.csr with result0 := BitVec.ofNat 32 (freqHz w), result1 := BitVec.ofNat 32 (freqRem w) })) ∧
  (∀ hz : Nat, hz < 2 ^ 32 → freqWord hz ≤ 0xA530E8 →
    freqHz (freqWord hz) ≤ hz + 198 ∧ hz ≤ freqHz (freqWord hz) + 198)

/-! ## Codec commands -/

/-- `CRC16` (42_checksum.md R101, R105). What one block step holds is the model's choice (log 18). -/
def Obligations.Crc16ReturnsTheChecksumOfARange : Prop :=
  decode 0x20 = .ok .crc16 ∧
  (∀ s : State, Idle s →
    exec .crc16 s = .next (
      if s.sess.state ≠ .idle then s.refuse .busy
      else if 65536 ≤ s.csr.args.a0.toNat then s.refuse .badOperand
      else if readableRange (s.csr.args.a0.extractLsb' 0 16) s.csr.args.a1.toNat = false then s.refuse .badOperand
      else s.accept .crc16)) ∧
  (∀ s : State, Fresh s →
    let src : HostAddr := s.engine.args.a0.extractLsb' 0 16
    let n := s.engine.args.a1.toNat
    readableRange src n = true →
    (∀ bs, s.readBytes src n = some bs →
      let raw := bs.foldl (fun (crc : BitVec 16) (b : Byte) =>
        (crc >>> 8) ^^^ crcEntry ((crc ^^^ b.setWidth 16).extractLsb' 0 8)) 0#16
      exec .crc16 s = .next (s.completeWith
        { s.csr with result0 := (raw.extractLsb' 0 8 ++ raw.extractLsb' 8 8).setWidth 32, result1 := raw.setWidth 32 })) ∧
    (s.readBytes src n = none → exec .crc16 s = .fault .readUnwritten))

/-- `BUILD_REQ` (43_framer.md R106, R109, R110). What one block step holds is the model's choice (log 18).
So is that `METER_ID` is read in that step and not at the `CMD` write (log 17). -/
def Obligations.BuildReqWritesPayloadAndFrame : Prop :=
  decode 0x21 = .ok .buildReq ∧
  (∀ s : State, Idle s →
    exec .buildReq s = .next (if s.sess.state ≠ .idle then s.refuse .busy else s.accept .buildReq)) ∧
  ∀ s : State, Fresh s →
    let tmpl := s.params.reqTemplate.toList
    let m := s.csr.meterId
    let body := tmpl.take 4 ++ [m.extractLsb' 24 8, m.extractLsb' 16 8, m.extractLsb' 8 8, m.extractLsb' 0 8] ++
      (tmpl.drop 8).take 9
    let crc := crcOut body
    let payload := body ++ [crc.extractLsb' 8 8, crc.extractLsb' 0 8]
    let frame := s.params.syncPattern.toList ++ encodeFrame payload
    body.length = 17 ∧ payload.length = 19 ∧ frame.length = 39 ∧
    ∃ t, exec .buildReq s = .next t ∧
      t = State.completeWith { s with mem := t.mem } { s.csr with result0 := 39, result1 := crc.setWidth 32 } ∧
      ∀ x : Nat, t.mem.read x =
        if 0x5000 ≤ x ∧ x < 0x5000 + 19 then payload[x - 0x5000]?
        else if 0x1000 ≤ x ∧ x < 0x1000 + 39 then frame[x - 0x1000]?
        else s.mem.read x

/-- `ENCODE` (43_framer.md R107, R111): the framed bytes of the whole source as it was before.
What one block step holds is the model's choice (log 18). -/
def Obligations.EncodeFramesARange : Prop :=
  decode 0x22 = .ok .encode ∧
  (∀ s : State, Idle s →
    let a := s.csr.args
    let n := a.a1.toNat
    exec .encode s = .next (
      if s.sess.state ≠ .idle then s.refuse .busy
      else if 65536 ≤ a.a0.toNat ∨ 65536 ≤ a.a2.toNat then s.refuse .badOperand
      else if n = 0 then s.refuse .range
      else if readableRange (a.a0.extractLsb' 0 16) n = false then s.refuse .badOperand
      else if writableRange (a.a2.extractLsb' 0 16) ((12 * n + 4) / 8 + 1) = false then s.refuse .badOperand
      else s.accept .encode)) ∧
  (∀ s : State, Fresh s →
    let src : HostAddr := s.engine.args.a0.extractLsb' 0 16
    let dst : HostAddr := s.engine.args.a2.extractLsb' 0 16
    let n := s.engine.args.a1.toNat
    let m := (12 * n + 4) / 8 + 1
    1 ≤ n → readableRange src n = true → writableRange dst m = true →
    (∀ bs, s.readBytes src n = some bs →
      (encodeFrame bs).length = m ∧
      ∃ t, exec .encode s = .next t ∧
        t = State.completeWith { s with mem := t.mem } { s.csr with result0 := BitVec.ofNat 32 m } ∧
        Stored s.mem t.mem dst.toNat (encodeFrame bs)) ∧
    (s.readBytes src n = none → exec .encode s = .fault .readUnwritten))

/-- `DECODE` (44_decoder.md R113, R126): the decode of the whole source as it was before.
What one block step holds is the model's choice (log 18). -/
def Obligations.DecodeRecoversARange : Prop :=
  decode 0x23 = .ok .decode ∧
  (∀ s : State, Idle s →
    let a := s.csr.args
    exec .decode s = .next (
      if s.sess.state ≠ .idle then s.refuse .busy
      else if 65536 ≤ a.a0.toNat ∨ 65536 ≤ a.a2.toNat then s.refuse .badOperand
      else if readableRange (a.a0.extractLsb' 0 16) a.a1.toNat = false then s.refuse .badOperand
      else if writableRange (a.a2.extractLsb' 0 16) a.a3.toNat = false then s.refuse .badOperand
      else if a.a3.toNat < max 1 ((2 * a.a1.toNat + 9) / 10) then s.refuse .range
      else s.accept .decode)) ∧
  (∀ s : State, Fresh s →
    let src : HostAddr := s.engine.args.a0.extractLsb' 0 16
    let dst : HostAddr := s.engine.args.a2.extractLsb' 0 16
    let r := s.engine.args.a1.toNat
    let cap := s.engine.args.a3.toNat
    readableRange src r = true → writableRange dst cap = true →
    (∀ bs, s.readBytes src r = some bs →
      let d := decodeSamples bs cap
      d.dst.length = cap ∧
      ∃ t, exec .decode s = .next t ∧
        t = State.completeWith { s with mem := t.mem }
          { s.csr with result0 := BitVec.ofNat 32 d.len, result1 := if d.stopped then 1 else 0 } ∧
        Stored s.mem t.mem dst.toNat d.dst) ∧
    (s.readBytes src r = none → exec .decode s = .fault .readUnwritten))

/-- `SENTCHK` (44_decoder.md R123, R127). What one block step holds is the model's choice (log 18). -/
def Obligations.SentchkFindsTheFirstSentinel : Prop :=
  decode 0x24 = .ok .sentchk ∧
  (∀ s : State, Idle s →
    exec .sentchk s = .next (
      if s.sess.state ≠ .idle then s.refuse .busy
      else if 65536 ≤ s.csr.args.a0.toNat then s.refuse .badOperand
      else if readableRange (s.csr.args.a0.extractLsb' 0 16) s.csr.args.a1.toNat = false then s.refuse .badOperand
      else s.accept .sentchk)) ∧
  (∀ s : State, Fresh s →
    let src : HostAddr := s.engine.args.a0.extractLsb' 0 16
    let n := s.engine.args.a1.toNat
    readableRange src n = true →
    (∀ bs, s.readBytes src n = some bs →
      (0xFF#8 ∉ bs → exec .sentchk s = .next (s.completeWith { s.csr with result0 := 0, result1 := 0xFFFFFFFF })) ∧
      (∀ i, bs[i]? = some 0xFF#8 → (∀ j, j < i → bs[j]? ≠ some 0xFF#8) →
        exec .sentchk s = .next (s.completeWith { s.csr with result0 := 1, result1 := BitVec.ofNat 32 i }))) ∧
    (s.readBytes src n = none → exec .sentchk s = .fault .readUnwritten))

/-- `EXTRACT` (44_decoder.md R124, R125, R128; 30_encoding.md R69).
What one block step holds is the model's choice (log 18). -/
def Obligations.ExtractFillsTheReadingRegisters : Prop :=
  decode 0x25 = .ok .extract ∧
  (∀ s : State, Idle s →
    let len := s.csr.args.a1.toNat
    let need := if 48 ≤ len then 49 else if 30 ≤ len then 22 else 0
    exec .extract s = .next (
      if s.sess.state ≠ .idle then s.refuse .busy
      else if 65536 ≤ s.csr.args.a0.toNat then s.refuse .badOperand
      else if 0xFFFF < len then s.refuse .range
      else if readableRange (s.csr.args.a0.extractLsb' 0 16) need = false then s.refuse .badOperand
      else s.accept .extract)) ∧
  (∀ s : State, Fresh s →
    let src : HostAddr := s.engine.args.a0.extractLsb' 0 16
    let len := s.engine.args.a1.toNat
    let need := if 48 ≤ len then 49 else if 30 ≤ len then 22 else 0
    readableRange src need = true →
    (∀ d, s.readBytes src need = some d →
      let liters : Word := if 30 ≤ len then d.getD 21 0 ++ d.getD 20 0 ++ d.getD 19 0 ++ d.getD 18 0 else 0
      let batt : Byte := if 48 ≤ len then d.getD 31 0 else 0
      let reads : Byte := if 48 ≤ len then d.getD 48 0 else 0
      exec .extract s = .next (s.completeWith
        { s.csr with
          reading :=
            { s.csr.reading with
              liters := liters, batt := batt, reads := reads
              hstart := if 48 ≤ len then d.getD 44 0 else 0
              hend := if 48 ≤ len then d.getD 45 0 else 0
              litV := decide (30 ≤ len), fldV := decide (48 ≤ len), decLen := BitVec.ofNat 16 len }
          result0 := if 48 ≤ len ∧ (reads ≠ 0 ∨ batt ≠ 0 ∨ liters ≠ 0) then 1 else 0 })) ∧
    (s.readBytes src need = none → exec .extract s = .fault .readUnwritten))

/-! ## The codec -/

/-- One table-driven update is eight bit-serial shift steps of the accumulator with the byte added; leading zero bytes do
not change the accumulator, and the returned value is 0 exactly when the accumulator is (42_checksum.md R99, R101 to R103). -/
def Obligations.ChecksumIsBitSerial : Prop :=
  let shift (c : BitVec 16) : BitVec 16 := if c.getLsbD 0 then (c >>> 1) ^^^ 0x8408#16 else c >>> 1
  (∀ bytes : List Byte, crcRaw bytes = bytes.foldl (fun c b => Nat.repeat shift 8 (c ^^^ b.setWidth 16)) 0) ∧
  (∀ (k : Nat) (bytes : List Byte), crcRaw (List.replicate k 0 ++ bytes) = crcRaw bytes) ∧
  (∀ bytes : List Byte, crcOut bytes = 0 ↔ crcRaw bytes = 0)

/-- The framed stream, bit by bit, its padding and its sentinel (30_encoding.md R67, 43_framer.md R107, R108). -/
def Obligations.FramingPlacesEveryBit : Prop :=
  ∀ payload : List Byte, 1 ≤ payload.length →
    let n := payload.length
    let out := encodeFrame payload
    out.length = (12 * n + 4) / 8 + 1 ∧
    out[out.length - 1]? = some 0xFF ∧
    ∀ k, k < 8 * (out.length - 1) →
      (out.getD (k / 8) 0).getLsbD (7 - k % 8) =
        if 12 * n - 3 ≤ k then true
        else if k % 12 = 0 then false
        else if k % 12 ≤ 8 then (payload.getD (k / 12) 0).getLsbD (k % 12 - 1)
        else true

/-- Encoding, then decoding a clean fourfold oversampled capture, gives the payload back (44_decoder.md R122). -/
def Obligations.EncodeThenDecodeGivesThePayload : Prop :=
  ∀ (payload : List Byte) (cap : Nat), 1 ≤ payload.length →
    decodeBound (over4 (encodeFrame payload)).length ≤ cap →
    let d := decodeSamples (over4 (encodeFrame payload)) cap
    d.len = payload.length - 1 ∧ d.stopped = false ∧ d.dst.take payload.length = payload

/-- A decode of R bytes never goes past the capacity bound, and bytes past the last one in progress are 0
(44_decoder.md R120, R121). -/
def Obligations.DecodeStaysWithinItsBound : Prop :=
  ∀ (src : List Byte) (cap : Nat),
    let d := decodeSamples src cap
    d.len ≤ max 1 ((2 * src.length + 9) / 10) - 1 ∧ d.dst.length = cap ∧
    ∀ k, d.len < k → k < cap → d.dst[k]? = some 0

/-- The decoder by its rules: the runs of the captured samples, divided by 4 with the carried remainder, give the logical
bits; a byte begins with the first bit, and after a set stop bit with the next clear bit; a clear stop bit ends decoding.
The runs and the places where bytes begin are determined by the samples. L is the index of the last byte, each byte holds
its data bits, the last one those that came, and every later byte is 0 (44_decoder.md R112 to R120). -/
def Obligations.DecodeReadsRunsAndBytes : Prop :=
  (∀ cap : Nat, decodeSamples [] cap = { len := 0, stopped := false, dst := List.replicate cap 0 }) ∧
  ∀ (src : List Byte) (cap : Nat), src ≠ [] →
    let d := decodeSamples src cap
    ∃ (runs : List (Nat × Bool)) (starts : List Nat),
      let bits := quantised 0 runs
      RunsOf ((List.range (8 * src.length)).map (sampleAt src)) runs ∧
      ByteStarts bits starts d.stopped ∧
      d.len + 1 = starts.length ∧
      (∀ (j f : Nat) (b : Byte), starts[j]? = some f → d.dst[j]? = some b → byteFrom bits f b) ∧
      ∀ j : Nat, d.len < j → j < cap → d.dst[j]? = some 0

/-! ## Sequencer commands and the tick -/

/-- `NOP` (45_read_sequencer.md R149). What one block step holds is the model's choice (log 18). -/
def Obligations.NopOnlyCompletes : Prop :=
  decode 0x00 = .ok .nop ∧
  (∀ s : State, Idle s → exec .nop s = .next (s.accept .nop)) ∧
  (∀ s : State, Fresh s → exec .nop s = .next (s.completeWith s.csr))

/-- `START_READ` (45_read_sequencer.md R150): the checks, then the session with the host's parameters latched and
everything else cleared. That the parameters are those at the latching block step is the model's reading (log 9).
What one block step holds is the model's choice (log 18). -/
def Obligations.StartReadLatchesTheSession : Prop :=
  decode 0x30 = .ok .startRead ∧
  (∀ s : State, Idle s →
    exec .startRead s = .next (
      if s.sess.state ≠ .idle then s.refuse .busy
      else if s.csr.status.chip = false then s.refuse .noChip
      else if 2 ≤ s.csr.args.a0.toNat then s.refuse .badOperand
      else if s.csr.budgets.pace = 0 then s.refuse .range
      else if s.csr.frameSize.toNat < 1 ∨ 744 < s.csr.frameSize.toNat then s.refuse .range
      else s.accept .startRead)) ∧
  (∀ s : State, Fresh s →
    exec .startRead s = .next
      (State.completeWith
        { s.ticked with
          sess :=
            { state := .startPreamble, t0 := s.tickNow, pub := s.engine.args.a0.getLsbD 0, failcode := .none
              meterId := s.csr.meterId, budgets := s.csr.budgets, frameSize := s.csr.frameSize
              reqLen := 0, sent := 0, target := 0, recv := 0, countdown := 0, lastPace := 0
              stg := { liters := 0, reads := 0, batt := 0, hstart := 0, hend := 0, rssiRaw := 0, lqi := 0, len := 0
                       linkV := false } } }
        { s.csr with result0 := 1, status := { s.csr.status with sok := false, sfail := false } }))

/-- `TICK` with no session (45_read_sequencer.md R151). What one block step holds is the model's choice (log 18). -/
def Obligations.TickWithNoSessionDoesNothing : Prop :=
  decode 0x31 = .ok .tick ∧
  (∀ s : State, Idle s → exec .tick s = .next (s.accept .tick)) ∧
  (∀ s : State, Fresh s → s.sess.state = .idle →
    exec .tick s = .next (s.completeWith { s.csr with result0 := 0, result1 := 0 }))

/-- StartPreamble (45_read_sequencer.md R132). With a latched `T_PACE` of 0, which only a write between acceptance and
latching can give, the countdown is some value that is not 0 (log 9). -/
def Obligations.TickStartPreamble : Prop :=
  ∀ s : State, Ticking .startPreamble s →
    let p := s.params
    let outs := [strobeTxn p .flushTx] ++ seqTxns p p.preambleSeq ++
      [burstWrite p p.fifoAddr (List.replicate 8 p.wakeByte), strobeTxn p .tx]
    ∃ count : Word, count ≠ 0 ∧
      (s.sess.budgets.pace ≠ 0 →
        count.toNat = max 1 (s.sess.budgets.preamble.toNat / s.sess.budgets.pace.toNat)) ∧
      RunsTo s ((busTxns s.ticked outs).tickEnd
        { s.sess with state := .streamPreamble, t0 := s.tickNow, countdown := count, lastPace := s.tickNow } true)

/-- StreamPreamble (45_read_sequencer.md R133). -/
def Obligations.TickStreamPreamble : Prop :=
  ∀ s : State, Ticking .streamPreamble s →
    let p := s.params
    if (s.tickNow - s.sess.lastPace).toNat < s.sess.budgets.pace.toNat then RunsTo s (s.ticked.tickEnd s.sess false)
    else
      let readState := singleRead p p.marcAddr
      let inTx := (s.ticked.answer readState).extractLsb' 0 5 ∈ p.txStates
      let u := busTxns s.ticked ([readState] ++ (if inTx then [] else [strobeTxn p .tx]))
      let readCount := singleRead p p.txBytesAddr
      let low := (u.answer readCount &&& p.cntMask).toNat < 8
      let v := busTxns u ([readCount] ++
        (if low then [burstWrite p p.fifoAddr (List.replicate 8 p.wakeByte)] else []))
      let x := { s.sess with lastPace := s.tickNow, countdown := s.sess.countdown - 1 }
      RunsTo s (if x.countdown = 0 then v.tickEnd { x with state := .guardBeforeReq, t0 := s.tickNow } true
        else v.tickEnd x false)

/-- GuardBeforeReq and DataWaitSync1: no transaction; the guard waits for its budget, the ack's wait ends at data-ready or
at its budget (45_read_sequencer.md R134, R139). What one block step holds is the model's choice (log 18). -/
def Obligations.TickGuardAndAckWait : Prop :=
  (∀ s : State, Fresh s → s.sess.state = .guardBeforeReq →
    exec .tick s = .next (
      if s.sess.budgets.guardTime.toNat ≤ (s.tickNow - s.sess.t0).toNat then
        s.ticked.tickEnd { s.sess with state := .startRequest, t0 := s.tickNow } true
      else s.ticked.tickEnd s.sess false)) ∧
  (∀ s : State, Fresh s → s.sess.state = .dataWaitSync1 →
    let ready := s.ticked.env.drawLevel.1
    let u : State := { s.ticked with env := s.ticked.env.drawLevel.2 }
    exec .tick s = .next (
      if ready = true ∨ s.sess.budgets.ack.toNat ≤ (s.tickNow - s.sess.t0).toNat then
        u.tickEnd { s.sess with state := .dataFetch1, t0 := s.tickNow } true
      else u.tickEnd s.sess false))

/-- StartRequest: the request of the latched meter in PAYB and TXB, then `REQ_SEQ` (45_read_sequencer.md R135). -/
def Obligations.TickStartRequest : Prop :=
  ∀ s : State, Ticking .startRequest s →
    let p := s.params
    let payload := buildPayload p (s.sess.meterId.extractLsb' 24 8) (s.sess.meterId.extractLsb' 0 24)
    let frame := p.syncPattern.toList ++ encodeFrame payload
    ∃ t, RunsTo s t ∧
      t = State.tickEnd { busTxns s.ticked (seqTxns p p.reqSeq) with mem := t.mem }
        { s.sess with state := .streamRequest, t0 := s.tickNow, reqLen := 39, sent := 0 } true ∧
      ∀ x : Nat, t.mem.read x =
        if 0x5000 ≤ x ∧ x < 0x5000 + 19 then payload[x - 0x5000]?
        else if 0x1000 ≤ x ∧ x < 0x1000 + 39 then frame[x - 0x1000]?
        else s.mem.read x

/-- StreamRequest: underflow recovery, a chunk bounded by the FIFO's free space, and its exits
(45_read_sequencer.md R136). The premise on `sent` is part of `SessionInv`. -/
def Obligations.TickStreamRequest : Prop :=
  ∀ s : State, Ticking .streamRequest s → s.sess.reqLen = 39 → s.sess.sent.toNat ≤ 39 →
    (∀ i, i < 39 → (s.mem.read (0x1000 + i)).isSome = true) →
    let p := s.params
    let now := s.tickNow
    let readCount := singleRead p p.txBytesAddr
    let r := s.ticked.answer readCount
    let finish (u : State) (sent : Nat) : State :=
      let x := { s.sess with sent := BitVec.ofNat 16 sent }
      if sent = 39 then u.tickEnd { x with state := .waitTxFinish, t0 := now } true
      else if s.sess.budgets.txStream.toNat ≤ (now - s.sess.t0).toNat then
        u.tickEnd { x with state := .fail, t0 := now, failcode := .txStreamTimeout } true
      else u.tickEnd x false
    if r &&& p.ufMask ≠ 0 then
      RunsTo s (finish (busTxns s.ticked [readCount, strobeTxn p .flushTx, strobeTxn p .tx]) 0)
    else
      let sent := s.sess.sent.toNat
      let chunk := min (p.fifoSize - (r &&& p.cntMask).toNat) (39 - sent)
      ∃ bytes, bytes.length = chunk ∧ (∀ i, i < chunk → bytes[i]? = s.mem.read (0x1000 + sent + i)) ∧
        RunsTo s (finish (busTxns s.ticked
          ([readCount] ++ (if 0 < chunk then [burstWrite p p.fifoAddr bytes] else []))) (sent + chunk))

/-- WaitTxFinish (45_read_sequencer.md R137). -/
def Obligations.TickWaitTxFinish : Prop :=
  ∀ s : State, Ticking .waitTxFinish s →
    let p := s.params
    let now := s.tickNow
    let readState := singleRead p p.marcAddr
    let inTx := (s.ticked.answer readState).extractLsb' 0 5 ∈ p.txStates
    let restored := busTxns s.ticked ([readState] ++ seqTxns p p.defaultSeq)
    RunsTo s (
      if ¬inTx then restored.tickEnd { s.sess with state := .dataSetupStage1, t0 := now } true
      else if s.sess.budgets.txDrain.toNat ≤ (now - s.sess.t0).toNat then
        restored.tickEnd { s.sess with state := .fail, t0 := now, failcode := .txDrainTimeout } true
      else (busTxns s.ticked [readState]).tickEnd s.sess false)

/-- The two receive set-ups: their register list, IDLE, RX; the second computes the target count
(45_read_sequencer.md R138, R141). -/
def Obligations.TickReceiveSetups : Prop :=
  (∀ s : State, Ticking .dataSetupStage1 s →
    let p := s.params
    RunsTo s ((busTxns s.ticked (seqTxns p p.ackRxSeq ++ [strobeTxn p .idle, strobeTxn p .rx])).tickEnd
      { s.sess with state := .dataWaitSync1, t0 := s.tickNow } true)) ∧
  (∀ s : State, Ticking .dataSetupStage2 s →
    let p := s.params
    let target := (s.sess.frameSize.toNat * 11 / 8 + 1) * 4
    (1 ≤ s.sess.frameSize.toNat → s.sess.frameSize.toNat ≤ 744 → 8 ≤ target ∧ target ≤ 4096) ∧
    RunsTo s ((busTxns s.ticked (seqTxns p p.dataRxSeq ++ [strobeTxn p .idle, strobeTxn p .rx])).tickEnd
      { s.sess with state := .dataWaitSync2, t0 := s.tickNow, target := BitVec.ofNat 16 target, recv := 0 } true))

/-- DataFetch1: whatever the receive FIFO holds is read and discarded (45_read_sequencer.md R140). -/
def Obligations.TickDrainAck : Prop :=
  ∀ s : State, Ticking .dataFetch1 s →
    let p := s.params
    let readCount := singleRead p p.rxBytesAddr
    let c := (s.ticked.answer readCount &&& p.cntMask).toNat
    RunsTo s ((busTxns s.ticked
        ([readCount] ++ (if 0 < c then [burstRead p p.fifoAddr (min c p.fifoSize)] else []))).tickEnd
      { s.sess with state := .dataSetupStage2, t0 := s.tickNow } true)

/-- DataWaitSync2 (45_read_sequencer.md R142). -/
def Obligations.TickDataWait : Prop :=
  ∀ s : State, Ticking .dataWaitSync2 s →
    let p := s.params
    let now := s.tickNow
    let ready := s.ticked.env.drawLevel.1
    let u : State := { s.ticked with env := s.ticked.env.drawLevel.2 }
    let readRssi := singleRead p p.rssiAddr
    let readLqi := singleRead p p.lqiAddr
    RunsTo s (
      if ready then
        (busTxns u [readRssi, readLqi]).tickEnd
          { s.sess with
            state := .dataFetch2, t0 := now
            stg := { s.sess.stg with
              rssiRaw := u.answer readRssi, lqi := (u.after readRssi).answer readLqi, linkV := true } } true
      else if s.sess.budgets.data.toNat ≤ (now - s.sess.t0).toNat then
        u.tickEnd { s.sess with state := .fail, t0 := now, failcode := .sync2Timeout } true
      else u.tickEnd s.sess false)

/-- DataFetch2: the new bytes in RAWB, then the target with or without a sentinel, the budget, or another tick
(45_read_sequencer.md R143). The premises on `recv` are part of `SessionInv`; a target past RAWB needs a `FRAME_SIZE`
raised between acceptance and latching (log 10). -/
def Obligations.TickFetchReply : Prop :=
  ∀ s : State, Ticking .dataFetch2 s → s.sess.target.toNat ≤ 4096 → s.sess.recv.toNat ≤ s.sess.target.toNat →
    (∀ i, i < s.sess.recv.toNat → (s.mem.read (0x2000 + i)).isSome = true) →
    let p := s.params
    let now := s.tickNow
    let readCount := singleRead p p.rxBytesAddr
    let u := s.ticked.after readCount
    let c := (s.ticked.answer readCount &&& p.cntMask).toNat
    let recv := s.sess.recv.toNat
    let chunk := min (min c p.fifoSize) (s.sess.target.toNat - recv)
    let burst := burstRead p p.fifoAddr chunk
    let got := if 0 < chunk then (u.busTxn burst).1.drop 1 else []
    let v := busTxns u (if 0 < chunk then [burst] else [])
    let x := { s.sess with recv := BitVec.ofNat 16 (recv + chunk) }
    ∃ m : Memory, got.length = chunk ∧ Stored s.mem m (0x2000 + recv) got ∧
      RunsTo s (
        if recv + chunk = s.sess.target.toNat then
          let w : State := { busTxns v (seqTxns p p.defaultSeq) with mem := m }
          if ∃ i, i < recv + chunk ∧ m.read (0x2000 + i) = some 0xFF then
            w.tickEnd { x with state := .decode, t0 := now } true
          else w.tickEnd { x with state := .fail, t0 := now, failcode := .noSentinel } true
        else if s.sess.budgets.data.toNat ≤ (now - s.sess.t0).toNat then
          State.tickEnd { busTxns v (seqTxns p p.defaultSeq) with mem := m }
            { x with state := .fail, t0 := now, failcode := .fetch2Timeout } true
        else State.tickEnd { v with mem := m } x false)

/-- Decode: the received bytes decoded into DECB, the fields staged, and the plausibility test
(45_read_sequencer.md R144). What one block step holds is the model's choice (log 18). -/
def Obligations.TickDecode : Prop :=
  ∀ (s : State) (raw : List Byte), Fresh s → s.sess.state = .decode → s.sess.recv.toNat ≤ 4096 →
    s.readBytes 0x2000 s.sess.recv.toNat = some raw →
    let d := decodeSamples raw 1024
    let f := extractFields d.dst d.len
    let x := { s.sess with
      t0 := s.tickNow
      stg := { s.sess.stg with
        liters := f.liters, batt := f.batt, hstart := f.hstart, hend := f.hend, reads := f.reads
        len := BitVec.ofNat 16 d.len } }
    ∃ t, exec .tick s = .next t ∧ Stored s.mem t.mem 0x3000 d.dst ∧
      t = State.tickEnd { s.ticked with mem := t.mem }
        (if 48 ≤ d.len ∧ (f.reads ≠ 0 ∨ f.batt ≠ 0 ∨ f.liters ≠ 0) then { x with state := .publish }
          else if d.len < 48 then { x with state := .fail, failcode := .shortFrame }
          else { x with state := .fail, failcode := .implausible }) true

/-- Publish: the reading registers, the learned window, the success flag, and the session's end
(45_read_sequencer.md R145). What one block step holds is the model's choice (log 18). -/
def Obligations.TickPublish : Prop :=
  ∀ s : State, Fresh s → s.sess.state = .publish →
    let g := s.sess.stg
    let raw : Int := if 128 ≤ g.rssiRaw.toNat then (g.rssiRaw.toNat : Int) - 256 else g.rssiRaw.toNat
    exec .tick s = .next (State.tickEnd
      { s.ticked with
        csr := { s.csr with
          reading :=
            { liters := g.liters, reads := g.reads, batt := g.batt, hstart := g.hstart, hend := g.hend
              rssiRaw := g.rssiRaw, lqi := g.lqi, rssiX2 := BitVec.ofInt 16 (raw - 148)
              litV := true, fldV := true, linkV := g.linkV, decLen := g.len }
          learn := { hstart := g.hstart, hend := g.hend, known := true }
          status := { s.csr.status with sok := true, pub := s.csr.status.pub || s.sess.pub } } }
      { s.sess with state := .idle, t0 := s.tickNow } true)

/-- Fail: both FIFOs flushed, idle, the default registers, the failure flag, and the session's end
(45_read_sequencer.md R146, 60_exceptions.md R160). -/
def Obligations.TickFail : Prop :=
  ∀ s : State, Ticking .fail s →
    let p := s.params
    let u := busTxns s.ticked
      ([strobeTxn p .flushRx, strobeTxn p .flushTx, strobeTxn p .idle] ++ seqTxns p p.defaultSeq)
    RunsTo s (State.tickEnd
      { u with csr := { s.csr with status := { s.csr.status with sfail := true } } }
      { s.sess with state := .idle, t0 := s.tickNow } true)

/-! ## The whole machine -/

/-- Every step keeps the invariant (20_memory.md R47, R48; 10_state.md R23; 60_exceptions.md R152;
70_reset_and_hazards.md R170). -/
def Obligations.EveryStepKeepsTheInvariant : Prop :=
  ∀ s t : State, Inv s → step s = .next t → Inv t

/-- The state after reset meets the invariant. -/
def Obligations.ResetMeetsTheInvariant : Prop := Inv State.reset

/-- A session whose target fits RAWB never stops at a model fault of the memory: whatever the transceiver answers, a tick
reads no unwritten byte and leaves no buffer (20_memory.md R48, R49; 45_read_sequencer.md R141, R143, R144). -/
def Obligations.ASessionNeverReadsUnwrittenMemory : Prop :=
  ∀ s : State, Inv s → s.sess.target.toNat ≤ 4096 →
    exec .tick s ≠ .fault .readUnwritten ∧ exec .tick s ≠ .fault .unmappedRange

/-- The session state changes only along the transition table, with the failure code of the exit; a reset apart
(45_read_sequencer.md R131, R147; 60_exceptions.md R159). -/
def Obligations.SessionMovesAlongTheTable : Prop :=
  ∀ s t : State, Inv s → step s = .next t → t.sess.state ≠ s.sess.state →
    (∃ rest, s.env.host = .rstN false :: rest) ∨
    (s.engine.busy = true ∧ t.engine.busy = false ∧
      sessionEdge s.sess.state t.sess.state t.sess.failcode = true)

/-- Who writes which register and which flag, a reset apart. Results change only when a command completes; operands and host
parameters only at a host write of space 0; the reading at the completion of `EXTRACT` or of the Publish tick, the learned
window of the Publish tick; `FREQWORD_CUR` of `CONFIGURE` and `INIT`; the session, and with it `SEQ` and its progress
registers, of `START_READ` and `TICK`; and each `STATUS` bit by what its row says sets or clears it
(10_state.md R16, R21, R22, R30 to R34, R39). -/
def Obligations.EachRegisterHasItsWriters : Prop :=
  ∀ s t : State, step s = .next t → (∀ level rest, s.env.host ≠ .rstN level :: rest) →
    let completes := s.engine.busy = true ∧ t.engine.busy = false
    let completesOne (opcodes : List Byte) := completes ∧ s.engine.opc ∈ opcodes
    let publishes := completesOne [0x31] ∧ s.sess.state = .publish ∧ t.sess.state = .idle
    let fails := completesOne [0x31] ∧ s.sess.state = .fail ∧ t.sess.state = .idle
    let writesWord (x : HostAccess) (a : HostAddr) :=
      (∃ rest, s.env.host = .access x :: rest) ∧ x.write = true ∧ x.size = .word ∧ x.addr = a
    let submits := ∃ x, writesWord x 0x000
    let clears (n : Nat) := ∃ x, writesWord x 0x014 ∧ x.data.getLsbD n = true
    let rises (f : State → Bool) := f s = false ∧ f t = true
    let falls (f : State → Bool) := f s = true ∧ f t = false
    ((t.csr.result0 ≠ s.csr.result0 ∨ t.csr.result1 ≠ s.csr.result1) → completes) ∧
    ((t.csr.cmd ≠ s.csr.cmd ∨ t.csr.args ≠ s.csr.args ∨ t.csr.ien ≠ s.csr.ien ∨ t.csr.meterId ≠ s.csr.meterId ∨
        t.csr.freq ≠ s.csr.freq ∨ t.csr.budgets ≠ s.csr.budgets ∨ t.csr.frameSize ≠ s.csr.frameSize) →
      ∃ x rest, s.env.host = .access x :: rest ∧ x.write = true ∧ x.addr.toNat < 0x1000) ∧
    (t.csr.reading ≠ s.csr.reading → completesOne [0x25] ∨ publishes) ∧
    (t.csr.learn ≠ s.csr.learn → publishes) ∧
    (t.csr.freqWordCur ≠ s.csr.freqWordCur → completesOne [0x12, 0x14]) ∧
    (t.sess ≠ s.sess → completesOne [0x30, 0x31]) ∧
    (rises (·.engine.busy) → submits) ∧
    (rises (·.csr.status.done) → completes ∨ submits) ∧ (falls (·.csr.status.done) → clears 1) ∧
    (rises (·.csr.status.err) → submits) ∧ (falls (·.csr.status.err) → clears 2) ∧
    (t.csr.status.errcode ≠ s.csr.status.errcode → submits ∨ clears 2) ∧
    (rises (·.csr.status.sok) → publishes) ∧ (falls (·.csr.status.sok) → clears 4 ∨ completesOne [0x30]) ∧
    (rises (·.csr.status.sfail) → fails) ∧ (falls (·.csr.status.sfail) → clears 5 ∨ completesOne [0x30]) ∧
    (rises (·.csr.status.pub) → publishes ∧ s.sess.pub = true) ∧ (falls (·.csr.status.pub) → clears 6) ∧
    (t.csr.status.chip ≠ s.csr.status.chip → completesOne [0x11, 0x14]) ∧
    (rises (·.csr.status.conf) → completesOne [0x12, 0x14]) ∧
    (falls (·.csr.status.conf) → completesOne [0x05, 0x10, 0x11, 0x14]) ∧
    (rises (·.csr.status.hflt) → ∃ x rest, s.env.host = .access x :: rest) ∧ (falls (·.csr.status.hflt) → clears 9) ∧
    t.params = s.params

/-! ## Host port -/

/-- Host reads: the register at its offset of the map, or a byte, comes back in `HRDATA` and nothing else of the block
changes; an unwritten buffer byte is the model fault READ_UNWRITTEN (20_memory.md R45, R48; 10_state.md R18). The zero
extension of a byte is the model's choice (log 22). -/
def Obligations.HostReadsHaveNoSideEffects : Prop :=
  ∀ (s : State) (rest : List HostEvent) (a : HostAddr), s.port.rstN = true →
    let u : State := { s with env := { s.env with host := rest } }
    let returns (v : State) (w : Word) : State := { v with port := { v.port with hrdata := w, herr := false } }
    (∀ c, s.env.host = rd32 a :: rest → (a.toNat, c) ∈ csrMap → c ≠ .now →
      step s = .next (returns u (readCsr s c))) ∧
    (s.env.host = rd32 0x028 :: rest → step s = .next (returns u.ticked u.tickNow)) ∧
    (∀ b, s.env.host = rd8 a :: rest → readableRange a 1 = true → s.readByte a = some b →
      step s = .next (returns u (b.setWidth 32))) ∧
    (s.env.host = rd8 a :: rest → readableRange a 1 = true → s.readByte a = none → step s = .fault .readUnwritten)

/-- What a byte of spaces 1 to 7 reads as: a buffer byte if one was written, the checksum table, the frame constants
(20_memory.md R41, R48; 42_checksum.md R99); and `MemRead` reads each byte of its range (00_scope.md R12). -/
def Obligations.MemReadReadsEachByte : Prop :=
  (∀ (s : State) (a : HostAddr),
    (writableRange a 1 = true → s.readByte a = s.mem.read a.toNat)) ∧
  (∀ (s : State) (i : Nat), i < 256 →
    s.readByte (BitVec.ofNat 16 (0x6000 + 2 * i)) = some ((crcEntry (BitVec.ofNat 8 i)).extractLsb' 0 8) ∧
    s.readByte (BitVec.ofNat 16 (0x6001 + 2 * i)) = some ((crcEntry (BitVec.ofNat 8 i)).extractLsb' 8 8)) ∧
  (∀ (s : State) (i : Nat), i < 28 →
    s.readByte (BitVec.ofNat 16 (0x7000 + i)) =
      if i < 9 then s.params.syncPattern[i]? else s.params.reqTemplate[i - 9]?) ∧
  (∀ (s : State) (a : HostAddr) (n : Nat) (bs : List Byte),
    s.readBytes a n = some bs ↔
      bs.length = n ∧ ∀ i, i < n → s.readByte (a + BitVec.ofNat 16 i) = bs[i]?)

/-- A host write of the register at an offset of the map: what every register reads as afterwards. `STATUS` loses the W1C
bits written as 1, and `ERRCODE` with `ERR`. A host write of a buffer byte that no rule blocks stores that byte and
nothing else (20_memory.md R46, R47; 10_state.md R19 to R34). That `HRDATA` is kept is the model's choice (log 13). -/
def Obligations.HostWritesTouchOneRegisterOrByte : Prop :=
  (∀ (s : State) (rest : List HostEvent) (a : HostAddr) (w : Word) (c : Csr), s.port.rstN = true →
    s.env.host = wr32 a w :: rest → (a.toNat, c) ∈ csrMap → c ≠ .cmd →
    ∃ t, step s = .next t ∧ t.sess = s.sess ∧ t.mem = s.mem ∧ t.engine = s.engine ∧ t.params = s.params ∧
      t.port = { s.port with herr := false } ∧ t.env = { s.env with host := rest } ∧
      ∀ r : Csr, readCsr t r =
        if r ≠ c then readCsr s r
        else if r = .status then
          readCsr s r &&& ~~~(w &&& 0x00000276) &&& (if w.getLsbD 2 then 0xFF00FFFF else 0xFFFFFFFF)
        else if r = .ien then w &&& 0x00000276
        else if r = .frameSize then w &&& 0x00000FFF
        else if r ∈ [.arg0, .arg1, .arg2, .arg3, .meterId, .freq, .tAck, .tData, .tPreamble, .tPace, .tGuard, .tTxStream,
            .tTxDrain] then w
        else readCsr s r) ∧
  (∀ (s : State) (rest : List HostEvent) (a : HostAddr) (b : Byte), s.port.rstN = true → s.env.host = wr8 a b :: rest →
    writableRange a 1 = true → s.engine.busy = false → (s.sess.state = .idle ∨ a.toNat / 4096 = 4) →
    ∃ t, step s = .next t ∧
      t = { s with mem := t.mem, port := { s.port with herr := false }, env := { s.env with host := rest } } ∧
      Stored s.mem t.mem a.toNat [b])

/-- Exactly the forbidden accesses are host faults, with `HFLT`, `HERR`, a read of 0 and no other effect
(60_exceptions.md R157; 20_memory.md R43, R44, R46, R47). -/
def Obligations.ForbiddenAccessesAreHostFaults : Prop :=
  ∀ (s : State) (x : HostAccess) (rest : List HostEvent), s.port.rstN = true → s.env.host = .access x :: rest →
    let space := x.addr.toNat / 4096
    let off := x.addr.toNat % 4096
    let mappedCsr := off ∈ [0x000, 0x004, 0x008, 0x00C, 0x010, 0x014, 0x018, 0x01C, 0x020, 0x024, 0x028, 0x030, 0x034,
      0x038, 0x03C, 0x040, 0x044, 0x048, 0x04C, 0x050, 0x054, 0x058, 0x060, 0x064, 0x068, 0x06C, 0x070, 0x074, 0x080,
      0x084, 0x088, 0x08C, 0x090]
    let size := [0, 64, 4096, 1024, 256, 32, 512, 28].getD space 0
    let blocked := s.engine.busy = true ∨ (s.sess.state ≠ .idle ∧ space ≠ 4)
    let bad :=
      if space = 0 then x.size = .byte ∨ ¬mappedCsr
      else x.size = .word ∨ size ≤ off ∨ (x.write = true ∧ (6 ≤ space ∨ blocked))
    (bad → ∃ data, (x.write = false → data = 0) ∧ step s = .next
      { s with
        csr := { s.csr with status := { s.csr.status with hflt := true } }
        port := { s.port with herr := true, hrdata := data }
        env := { s.env with host := rest } }) ∧
    (¬bad → ∀ t, step s = .next t → t.port.herr = false ∧ t.csr.status.hflt ≤ s.csr.status.hflt)

/-- Every stored register as the host reads it, field by field: `STATUS` with the numbers of its error codes, `SEQ` with those of
the states and the failure codes, the progress, reading and window registers, the stored registers, the bits that read as
0, and the interrupt output (10_state.md R19 to R36; 60_exceptions.md R154, R159, R162). -/
def Obligations.StatusFieldsAndInterrupt : Prop :=
  ∀ s : State,
    let w := readCsr s .status
    let st := s.csr.status
    let q := readCsr s .seq
    let g := s.csr.reading
    let fields (c : Csr) (parts : List (Nat × Nat × Nat)) : Prop :=
      ∀ part ∈ parts, (readCsr s c).toNat / 2 ^ part.1 % 2 ^ part.2.1 = part.2.2
    (w.getLsbD 0 = s.engine.busy ∧ w.getLsbD 1 = st.done ∧ w.getLsbD 2 = st.err ∧
      w.getLsbD 3 = decide (s.sess.state ≠ .idle) ∧ w.getLsbD 4 = st.sok ∧ w.getLsbD 5 = st.sfail ∧
      w.getLsbD 6 = st.pub ∧ w.getLsbD 7 = st.chip ∧ w.getLsbD 8 = st.conf ∧ w.getLsbD 9 = st.hflt ∧
      w.extractLsb' 10 6 = 0 ∧ w.extractLsb' 24 8 = 0 ∧
      w.extractLsb' 16 8 =
        match st.errcode with
        | .none => 0 | .illegalOpcode => 1 | .reservedBits => 2 | .busy => 3 | .noChip => 4 | .badOperand => 5
        | .range => 6) ∧
    (q.extractLsb' 0 5 =
        (match s.sess.state with
        | .idle => 0 | .startPreamble => 1 | .streamPreamble => 2 | .guardBeforeReq => 3 | .startRequest => 4
        | .streamRequest => 5 | .waitTxFinish => 6 | .dataSetupStage1 => 7 | .dataWaitSync1 => 8 | .dataFetch1 => 9
        | .dataSetupStage2 => 10 | .dataWaitSync2 => 11 | .dataFetch2 => 12 | .decode => 13 | .publish => 14
        | .fail => 15) ∧
      q.extractLsb' 5 3 = 0 ∧ q.getLsbD 8 = s.sess.pub ∧ q.extractLsb' 9 7 = 0 ∧ q.extractLsb' 24 8 = 0 ∧
      q.extractLsb' 16 8 =
        match s.sess.failcode with
        | .none => 0 | .txStreamTimeout => 1 | .txDrainTimeout => 2 | .sync2Timeout => 3 | .fetch2Timeout => 4
        | .noSentinel => 5 | .shortFrame => 6 | .implausible => 7) ∧
    (readCsr s .seqT0 = s.sess.t0 ∧ readCsr s .seqPre = s.sess.countdown ∧ readCsr s .seqTPace = s.sess.lastPace ∧
      fields .seqTx [(0, 16, s.sess.sent.toNat), (16, 16, s.sess.reqLen.toNat)] ∧
      fields .seqRx [(0, 16, s.sess.recv.toNat), (16, 16, s.sess.target.toNat)]) ∧
    (readCsr s .rdLiters = g.liters ∧
      fields .rdFields [(0, 8, g.reads.toNat), (8, 8, g.batt.toNat), (16, 8, g.hstart.toNat), (24, 8, g.hend.toNat)] ∧
      fields .rdLink [(0, 8, g.rssiRaw.toNat), (8, 8, g.lqi.toNat), (16, 16, g.rssiX2.toNat)] ∧
      fields .rdValid [(0, 1, g.litV.toNat), (1, 1, g.fldV.toNat), (2, 1, g.linkV.toNat), (3, 13, 0),
        (16, 16, g.decLen.toNat)] ∧
      fields .learnWin [(0, 8, s.csr.learn.hstart.toNat), (8, 8, s.csr.learn.hend.toNat),
        (16, 1, s.csr.learn.known.toNat), (17, 15, 0)]) ∧
    (readCsr s .cmd = s.csr.cmd ∧ readCsr s .arg0 = s.csr.args.a0 ∧ readCsr s .arg1 = s.csr.args.a1 ∧
      readCsr s .arg2 = s.csr.args.a2 ∧ readCsr s .arg3 = s.csr.args.a3 ∧ readCsr s .result0 = s.csr.result0 ∧
      readCsr s .result1 = s.csr.result1 ∧ readCsr s .ien = s.csr.ien ∧ readCsr s .blkid = 0x52410007 ∧
      readCsr s .meterId = s.csr.meterId ∧ readCsr s .freq = s.csr.freq ∧
      fields .frameSize [(0, 12, s.csr.frameSize.toNat), (12, 20, 0)] ∧
      fields .freqWordCur [(0, 24, s.csr.freqWordCur.toNat), (24, 8, 0)]) ∧
    (readCsr s .tAck = s.csr.budgets.ack ∧ readCsr s .tData = s.csr.budgets.data ∧
      readCsr s .tPreamble = s.csr.budgets.preamble ∧ readCsr s .tPace = s.csr.budgets.pace ∧
      readCsr s .tGuard = s.csr.budgets.guardTime ∧ readCsr s .tTxStream = s.csr.budgets.txStream ∧
      readCsr s .tTxDrain = s.csr.budgets.txDrain) ∧
    s.irq = [1, 2, 4, 5, 6, 9].any (fun b => w.getLsbD b && (readCsr s .ien).getLsbD b)

/-- Every register and every output right after reset (70_reset_and_hazards.md R171). -/
def Obligations.ResetValues : Prop :=
  let s := State.reset
  (∀ c : Csr, c ≠ .now → readCsr s c = if c = .blkid then 0x52410007 else if c = .learnWin then 0x0000FFFF else 0) ∧
  s.engine = { busy := false, opc := 0, args := { a0 := 0, a1 := 0, a2 := 0, a3 := 0 }, t0 := 0, replies := [] } ∧
  s.sess.state = .idle ∧ s.sess.failcode = .none ∧ s.sess.meterId = 0 ∧ s.sess.frameSize = 0 ∧
  s.sess.budgets = { ack := 0, data := 0, preamble := 0, pace := 0, guardTime := 0, txStream := 0, txDrain := 0 } ∧
  s.sess.stg = { liters := 0, reads := 0, batt := 0, hstart := 0, hend := 0, rssiRaw := 0, lqi := 0, len := 0
                 linkV := false } ∧
  (∀ a : HostAddr, writableRange a 1 = true → s.readByte a = none) ∧
  s.csN = true ∧ s.irq = false ∧ s.port.herr = false

/-- `RST_N` = 0 takes every piece of the block's state to its reset value, ends a command and a session without their
effects and makes no bus transaction; an access during reset returns 0 without `HERR`, and the block does nothing
(70_reset_and_hazards.md R170, R171). That the values are taken at once, and that a write access during reset also makes
`HRDATA` 0, is the model's choice (log 12). -/
def Obligations.ResetLineClearsTheBlock : Prop :=
  (∀ (s : State) (rest : List HostEvent), s.env.host = .rstN false :: rest →
    ∃ t, step s = .next t ∧ t.csr = State.reset.csr ∧ t.engine = State.reset.engine ∧ t.sess = State.reset.sess ∧
      t.mem = State.reset.mem ∧ t.params = s.params ∧ t.port.rstN = false ∧ t.port.herr = false ∧ t.irq = false ∧
      t.env = { s.env with host := rest }) ∧
  (∀ (s : State) (x : HostAccess) (rest : List HostEvent), s.port.rstN = false → s.env.host = .access x :: rest →
    step s = .next { s with port := { s.port with hrdata := 0, herr := false }, env := { s.env with host := rest } }) ∧
  (∀ s : State, s.port.rstN = false → s.env.host = [] → step s = .next s)
end

