-- ==== Sys2Proof/Laws/State.lean ====
section
/-! SUPPORT. What each named update of the state leaves in each field: one lemma for each field and update, true by
definition, so that no later proof unfolds a record update. -/

namespace Sys2Proof.Machine

/-! ### `State.setResult0` -/

@[simp] theorem State.setResult0_params (s : State) (w : Word) : (s.setResult0 w).params = s.params := rfl
@[simp] theorem State.setResult0_csr (s : State) (w : Word) : (s.setResult0 w).csr = { s.csr with result0 := w } := rfl
@[simp] theorem State.setResult0_engine (s : State) (w : Word) : (s.setResult0 w).engine = s.engine := rfl
@[simp] theorem State.setResult0_sess (s : State) (w : Word) : (s.setResult0 w).sess = s.sess := rfl
@[simp] theorem State.setResult0_mem (s : State) (w : Word) : (s.setResult0 w).mem = s.mem := rfl
@[simp] theorem State.setResult0_port (s : State) (w : Word) : (s.setResult0 w).port = s.port := rfl
@[simp] theorem State.setResult0_env (s : State) (w : Word) : (s.setResult0 w).env = s.env := rfl

/-! ### `State.setResult1` -/

@[simp] theorem State.setResult1_params (s : State) (w : Word) : (s.setResult1 w).params = s.params := rfl
@[simp] theorem State.setResult1_csr (s : State) (w : Word) : (s.setResult1 w).csr = { s.csr with result1 := w } := rfl
@[simp] theorem State.setResult1_engine (s : State) (w : Word) : (s.setResult1 w).engine = s.engine := rfl
@[simp] theorem State.setResult1_sess (s : State) (w : Word) : (s.setResult1 w).sess = s.sess := rfl
@[simp] theorem State.setResult1_mem (s : State) (w : Word) : (s.setResult1 w).mem = s.mem := rfl
@[simp] theorem State.setResult1_port (s : State) (w : Word) : (s.setResult1 w).port = s.port := rfl
@[simp] theorem State.setResult1_env (s : State) (w : Word) : (s.setResult1 w).env = s.env := rfl

/-! ### `State.mapStatus` -/

@[simp] theorem State.mapStatus_params (s : State) (f : Status → Status) : (s.mapStatus f).params = s.params := rfl
@[simp] theorem State.mapStatus_csr (s : State) (f : Status → Status) : (s.mapStatus f).csr = { s.csr with status := f s.csr.status } := rfl
@[simp] theorem State.mapStatus_engine (s : State) (f : Status → Status) : (s.mapStatus f).engine = s.engine := rfl
@[simp] theorem State.mapStatus_sess (s : State) (f : Status → Status) : (s.mapStatus f).sess = s.sess := rfl
@[simp] theorem State.mapStatus_mem (s : State) (f : Status → Status) : (s.mapStatus f).mem = s.mem := rfl
@[simp] theorem State.mapStatus_port (s : State) (f : Status → Status) : (s.mapStatus f).port = s.port := rfl
@[simp] theorem State.mapStatus_env (s : State) (f : Status → Status) : (s.mapStatus f).env = s.env := rfl

/-! ### `State.setConf` -/

@[simp] theorem State.setConf_params (s : State) (b : Bool) : (s.setConf b).params = s.params := rfl
@[simp] theorem State.setConf_csr (s : State) (b : Bool) : (s.setConf b).csr = { s.csr with status := { s.csr.status with conf := b } } := rfl
@[simp] theorem State.setConf_engine (s : State) (b : Bool) : (s.setConf b).engine = s.engine := rfl
@[simp] theorem State.setConf_sess (s : State) (b : Bool) : (s.setConf b).sess = s.sess := rfl
@[simp] theorem State.setConf_mem (s : State) (b : Bool) : (s.setConf b).mem = s.mem := rfl
@[simp] theorem State.setConf_port (s : State) (b : Bool) : (s.setConf b).port = s.port := rfl
@[simp] theorem State.setConf_env (s : State) (b : Bool) : (s.setConf b).env = s.env := rfl

/-! ### `State.setChip` -/

@[simp] theorem State.setChip_params (s : State) (b : Bool) : (s.setChip b).params = s.params := rfl
@[simp] theorem State.setChip_csr (s : State) (b : Bool) : (s.setChip b).csr = { s.csr with status := { s.csr.status with chip := b } } := rfl
@[simp] theorem State.setChip_engine (s : State) (b : Bool) : (s.setChip b).engine = s.engine := rfl
@[simp] theorem State.setChip_sess (s : State) (b : Bool) : (s.setChip b).sess = s.sess := rfl
@[simp] theorem State.setChip_mem (s : State) (b : Bool) : (s.setChip b).mem = s.mem := rfl
@[simp] theorem State.setChip_port (s : State) (b : Bool) : (s.setChip b).port = s.port := rfl
@[simp] theorem State.setChip_env (s : State) (b : Bool) : (s.setChip b).env = s.env := rfl

/-! ### `State.mapSess` -/

@[simp] theorem State.mapSess_params (s : State) (f : Session → Session) : (s.mapSess f).params = s.params := rfl
@[simp] theorem State.mapSess_csr (s : State) (f : Session → Session) : (s.mapSess f).csr = s.csr := rfl
@[simp] theorem State.mapSess_engine (s : State) (f : Session → Session) : (s.mapSess f).engine = s.engine := rfl
@[simp] theorem State.mapSess_sess (s : State) (f : Session → Session) : (s.mapSess f).sess = f s.sess := rfl
@[simp] theorem State.mapSess_mem (s : State) (f : Session → Session) : (s.mapSess f).mem = s.mem := rfl
@[simp] theorem State.mapSess_port (s : State) (f : Session → Session) : (s.mapSess f).port = s.port := rfl
@[simp] theorem State.mapSess_env (s : State) (f : Session → Session) : (s.mapSess f).env = s.env := rfl

/-! ### `State.mapReading` -/

@[simp] theorem State.mapReading_params (s : State) (f : Reading → Reading) : (s.mapReading f).params = s.params := rfl
@[simp] theorem State.mapReading_csr (s : State) (f : Reading → Reading) : (s.mapReading f).csr = { s.csr with reading := f s.csr.reading } := rfl
@[simp] theorem State.mapReading_engine (s : State) (f : Reading → Reading) : (s.mapReading f).engine = s.engine := rfl
@[simp] theorem State.mapReading_sess (s : State) (f : Reading → Reading) : (s.mapReading f).sess = s.sess := rfl
@[simp] theorem State.mapReading_mem (s : State) (f : Reading → Reading) : (s.mapReading f).mem = s.mem := rfl
@[simp] theorem State.mapReading_port (s : State) (f : Reading → Reading) : (s.mapReading f).port = s.port := rfl
@[simp] theorem State.mapReading_env (s : State) (f : Reading → Reading) : (s.mapReading f).env = s.env := rfl

/-! ### `State.respond` -/

@[simp] theorem State.respond_params (s : State) (d : Word) (e : Bool) : (s.respond d e).params = s.params := rfl
@[simp] theorem State.respond_csr (s : State) (d : Word) (e : Bool) : (s.respond d e).csr = s.csr := rfl
@[simp] theorem State.respond_engine (s : State) (d : Word) (e : Bool) : (s.respond d e).engine = s.engine := rfl
@[simp] theorem State.respond_sess (s : State) (d : Word) (e : Bool) : (s.respond d e).sess = s.sess := rfl
@[simp] theorem State.respond_mem (s : State) (d : Word) (e : Bool) : (s.respond d e).mem = s.mem := rfl
@[simp] theorem State.respond_port (s : State) (d : Word) (e : Bool) : (s.respond d e).port = { s.port with hrdata := d, herr := e } := rfl
@[simp] theorem State.respond_env (s : State) (d : Word) (e : Bool) : (s.respond d e).env = s.env := rfl

/-! ### `State.refuse` -/

@[simp] theorem State.refuse_params (s : State) (c : ErrCode) : (s.refuse c).params = s.params := rfl
@[simp] theorem State.refuse_csr (s : State) (c : ErrCode) : (s.refuse c).csr = { s.csr with status := { s.csr.status with done := true, err := true, errcode := c } } := rfl
@[simp] theorem State.refuse_engine (s : State) (c : ErrCode) : (s.refuse c).engine = s.engine := rfl
@[simp] theorem State.refuse_sess (s : State) (c : ErrCode) : (s.refuse c).sess = s.sess := rfl
@[simp] theorem State.refuse_mem (s : State) (c : ErrCode) : (s.refuse c).mem = s.mem := rfl
@[simp] theorem State.refuse_port (s : State) (c : ErrCode) : (s.refuse c).port = s.port := rfl
@[simp] theorem State.refuse_env (s : State) (c : ErrCode) : (s.refuse c).env = s.env := rfl

/-! ### `State.dropBusy` -/

@[simp] theorem State.dropBusy_params (s : State) : (s.dropBusy).params = s.params := rfl
@[simp] theorem State.dropBusy_csr (s : State) : (s.dropBusy).csr = { s.csr with status := { s.csr.status with err := true, errcode := .busy } } := rfl
@[simp] theorem State.dropBusy_engine (s : State) : (s.dropBusy).engine = s.engine := rfl
@[simp] theorem State.dropBusy_sess (s : State) : (s.dropBusy).sess = s.sess := rfl
@[simp] theorem State.dropBusy_mem (s : State) : (s.dropBusy).mem = s.mem := rfl
@[simp] theorem State.dropBusy_port (s : State) : (s.dropBusy).port = s.port := rfl
@[simp] theorem State.dropBusy_env (s : State) : (s.dropBusy).env = s.env := rfl

/-! ### `State.hostFault` -/

@[simp] theorem State.hostFault_params (s : State) : (s.hostFault).params = s.params := rfl
@[simp] theorem State.hostFault_csr (s : State) : (s.hostFault).csr = { s.csr with status := { s.csr.status with hflt := true } } := rfl
@[simp] theorem State.hostFault_engine (s : State) : (s.hostFault).engine = s.engine := rfl
@[simp] theorem State.hostFault_sess (s : State) : (s.hostFault).sess = s.sess := rfl
@[simp] theorem State.hostFault_mem (s : State) : (s.hostFault).mem = s.mem := rfl
@[simp] theorem State.hostFault_port (s : State) : (s.hostFault).port = { s.port with herr := true } := rfl
@[simp] theorem State.hostFault_env (s : State) : (s.hostFault).env = s.env := rfl

/-! ### `State.hostReadFault` -/

@[simp] theorem State.hostReadFault_params (s : State) : (s.hostReadFault).params = s.params := rfl
@[simp] theorem State.hostReadFault_csr (s : State) : (s.hostReadFault).csr = { s.csr with status := { s.csr.status with hflt := true } } := rfl
@[simp] theorem State.hostReadFault_engine (s : State) : (s.hostReadFault).engine = s.engine := rfl
@[simp] theorem State.hostReadFault_sess (s : State) : (s.hostReadFault).sess = s.sess := rfl
@[simp] theorem State.hostReadFault_mem (s : State) : (s.hostReadFault).mem = s.mem := rfl
@[simp] theorem State.hostReadFault_port (s : State) : (s.hostReadFault).port = { s.port with herr := true, hrdata := 0 } := rfl
@[simp] theorem State.hostReadFault_env (s : State) : (s.hostReadFault).env = s.env := rfl

/-! ### `State.goto` -/

@[simp] theorem State.goto_params (s : State) (n : SessState) (t : Word) : (s.goto n t).params = s.params := rfl
@[simp] theorem State.goto_csr (s : State) (n : SessState) (t : Word) : (s.goto n t).csr = s.csr := rfl
@[simp] theorem State.goto_engine (s : State) (n : SessState) (t : Word) : (s.goto n t).engine = s.engine := rfl
@[simp] theorem State.goto_sess (s : State) (n : SessState) (t : Word) : (s.goto n t).sess = { s.sess with state := n, t0 := t } := rfl
@[simp] theorem State.goto_mem (s : State) (n : SessState) (t : Word) : (s.goto n t).mem = s.mem := rfl
@[simp] theorem State.goto_port (s : State) (n : SessState) (t : Word) : (s.goto n t).port = s.port := rfl
@[simp] theorem State.goto_env (s : State) (n : SessState) (t : Word) : (s.goto n t).env = s.env := rfl

/-! ### `State.failSession` -/

@[simp] theorem State.failSession_params (s : State) (c : FailCode) (t : Word) : (s.failSession c t).params = s.params := rfl
@[simp] theorem State.failSession_csr (s : State) (c : FailCode) (t : Word) : (s.failSession c t).csr = s.csr := rfl
@[simp] theorem State.failSession_engine (s : State) (c : FailCode) (t : Word) : (s.failSession c t).engine = s.engine := rfl
@[simp] theorem State.failSession_sess (s : State) (c : FailCode) (t : Word) : (s.failSession c t).sess = { s.sess with failcode := c, state := .fail, t0 := t } := rfl
@[simp] theorem State.failSession_mem (s : State) (c : FailCode) (t : Word) : (s.failSession c t).mem = s.mem := rfl
@[simp] theorem State.failSession_port (s : State) (c : FailCode) (t : Word) : (s.failSession c t).port = s.port := rfl
@[simp] theorem State.failSession_env (s : State) (c : FailCode) (t : Word) : (s.failSession c t).env = s.env := rfl

/-! ### `State.record` -/

@[simp] theorem State.record_params (s : State) (r : Reply) : (s.record r).params = s.params := rfl
@[simp] theorem State.record_csr (s : State) (r : Reply) : (s.record r).csr = s.csr := rfl
@[simp] theorem State.record_engine (s : State) (r : Reply) : (s.record r).engine = { s.engine with replies := s.engine.replies ++ [r] } := rfl
@[simp] theorem State.record_sess (s : State) (r : Reply) : (s.record r).sess = s.sess := rfl
@[simp] theorem State.record_mem (s : State) (r : Reply) : (s.record r).mem = s.mem := rfl
@[simp] theorem State.record_port (s : State) (r : Reply) : (s.record r).port = s.port := rfl
@[simp] theorem State.record_env (s : State) (r : Reply) : (s.record r).env = s.env := rfl

/-! ### `State.keepReplies` -/

@[simp] theorem State.keepReplies_params (s : State) (n : Nat) : (s.keepReplies n).params = s.params := rfl
@[simp] theorem State.keepReplies_csr (s : State) (n : Nat) : (s.keepReplies n).csr = s.csr := rfl
@[simp] theorem State.keepReplies_engine (s : State) (n : Nat) : (s.keepReplies n).engine = { s.engine with replies := s.engine.replies.take n } := rfl
@[simp] theorem State.keepReplies_sess (s : State) (n : Nat) : (s.keepReplies n).sess = s.sess := rfl
@[simp] theorem State.keepReplies_mem (s : State) (n : Nat) : (s.keepReplies n).mem = s.mem := rfl
@[simp] theorem State.keepReplies_port (s : State) (n : Nat) : (s.keepReplies n).port = s.port := rfl
@[simp] theorem State.keepReplies_env (s : State) (n : Nat) : (s.keepReplies n).env = s.env := rfl

/-! ### `State.complete` -/

@[simp] theorem State.complete_params (s : State) : (s.complete).params = s.params := rfl
@[simp] theorem State.complete_csr (s : State) : (s.complete).csr = { s.csr with status := { s.csr.status with done := true } } := rfl
@[simp] theorem State.complete_engine (s : State) : (s.complete).engine = { s.engine with busy := false, replies := [] } := rfl
@[simp] theorem State.complete_sess (s : State) : (s.complete).sess = s.sess := rfl
@[simp] theorem State.complete_mem (s : State) : (s.complete).mem = s.mem := rfl
@[simp] theorem State.complete_port (s : State) : (s.complete).port = s.port := rfl
@[simp] theorem State.complete_env (s : State) : (s.complete).env = s.env := rfl

/-! ### `State.accept` -/

@[simp] theorem State.accept_params (s : State) (i : Instr) : (s.accept i).params = s.params := rfl
@[simp] theorem State.accept_csr (s : State) (i : Instr) : (s.accept i).csr = s.csr := rfl
@[simp] theorem State.accept_engine (s : State) (i : Instr) : (s.accept i).engine = { busy := true, opc := opcodeOf i, args := s.csr.args, t0 := s.env.readClock.1, replies := [] } := rfl
@[simp] theorem State.accept_sess (s : State) (i : Instr) : (s.accept i).sess = s.sess := rfl
@[simp] theorem State.accept_mem (s : State) (i : Instr) : (s.accept i).mem = s.mem := rfl
@[simp] theorem State.accept_port (s : State) (i : Instr) : (s.accept i).port = s.port := rfl
@[simp] theorem State.accept_env (s : State) (i : Instr) : (s.accept i).env = s.env.readClock.2 := rfl

/-! ### `State.writeBytes` -/

@[simp] theorem State.writeBytes_params (s : State) (a : HostAddr) (bs : List Byte) : (s.writeBytes a bs).params = s.params := rfl
@[simp] theorem State.writeBytes_csr (s : State) (a : HostAddr) (bs : List Byte) : (s.writeBytes a bs).csr = s.csr := rfl
@[simp] theorem State.writeBytes_engine (s : State) (a : HostAddr) (bs : List Byte) : (s.writeBytes a bs).engine = s.engine := rfl
@[simp] theorem State.writeBytes_sess (s : State) (a : HostAddr) (bs : List Byte) : (s.writeBytes a bs).sess = s.sess := rfl
@[simp] theorem State.writeBytes_mem (s : State) (a : HostAddr) (bs : List Byte) : (s.writeBytes a bs).mem = s.mem.write a.toNat bs := rfl
@[simp] theorem State.writeBytes_port (s : State) (a : HostAddr) (bs : List Byte) : (s.writeBytes a bs).port = s.port := rfl
@[simp] theorem State.writeBytes_env (s : State) (a : HostAddr) (bs : List Byte) : (s.writeBytes a bs).env = s.env := rfl

/-! ### `State.popHost` -/

@[simp] theorem State.popHost_params (s : State) (l : List HostEvent) : (s.popHost l).params = s.params := rfl
@[simp] theorem State.popHost_csr (s : State) (l : List HostEvent) : (s.popHost l).csr = s.csr := rfl
@[simp] theorem State.popHost_engine (s : State) (l : List HostEvent) : (s.popHost l).engine = s.engine := rfl
@[simp] theorem State.popHost_sess (s : State) (l : List HostEvent) : (s.popHost l).sess = s.sess := rfl
@[simp] theorem State.popHost_mem (s : State) (l : List HostEvent) : (s.popHost l).mem = s.mem := rfl
@[simp] theorem State.popHost_port (s : State) (l : List HostEvent) : (s.popHost l).port = s.port := rfl
@[simp] theorem State.popHost_env (s : State) (l : List HostEvent) : (s.popHost l).env = { s.env with host := l } := rfl

/-! ### `State.blockReset` -/

@[simp] theorem State.blockReset_params (s : State) : (s.blockReset).params = s.params := rfl
@[simp] theorem State.blockReset_csr (s : State) : (s.blockReset).csr = .reset := rfl
@[simp] theorem State.blockReset_engine (s : State) : (s.blockReset).engine = .reset := rfl
@[simp] theorem State.blockReset_sess (s : State) : (s.blockReset).sess = .reset := rfl
@[simp] theorem State.blockReset_mem (s : State) : (s.blockReset).mem = [] := rfl
@[simp] theorem State.blockReset_port (s : State) : (s.blockReset).port = { hrdata := 0, herr := false, rstN := false } := rfl
@[simp] theorem State.blockReset_env (s : State) : (s.blockReset).env = s.env := rfl

/-! ### `State.busTxn` -/

@[simp] theorem State.busTxn_params (s : State) (out : List Byte) : ((s.busTxn out).2).params = s.params := rfl
@[simp] theorem State.busTxn_csr (s : State) (out : List Byte) : ((s.busTxn out).2).csr = s.csr := rfl
@[simp] theorem State.busTxn_engine (s : State) (out : List Byte) : ((s.busTxn out).2).engine = s.engine := rfl
@[simp] theorem State.busTxn_sess (s : State) (out : List Byte) : ((s.busTxn out).2).sess = s.sess := rfl
@[simp] theorem State.busTxn_mem (s : State) (out : List Byte) : ((s.busTxn out).2).mem = s.mem := rfl
@[simp] theorem State.busTxn_port (s : State) (out : List Byte) : ((s.busTxn out).2).port = s.port := rfl
@[simp] theorem State.busTxn_env (s : State) (out : List Byte) : ((s.busTxn out).2).env = { (s.env.drawBytes out.length).2 with busLog := (s.env.drawBytes out.length).2.busLog ++ [out] } := rfl

end Sys2Proof.Machine
end

