-- ==== Sys2Proof/Laws/Memory.lean ====
section
/-! SUPPORT. What the buffer memory's operations do: the value read after a write, the canonical form kept, and the
ranges that lie in a writable buffer. -/

namespace Sys2Proof.Machine

/-- Reading consecutive cells gives the byte of that index, and nothing outside them. -/
theorem Memory.read_cellsAt (bs : List Byte) (a x : Nat) :
    Memory.read (cellsAt a bs) x = if a ≤ x then bs[x - a]? else none := by
  induction bs generalizing a with
  | nil => simp [cellsAt, Memory.read]
  | cons b bs ih =>
    simp only [cellsAt, Memory.read, ih]
    rcases Nat.lt_trichotomy a x with h | h | h
    · have e : x - a = (x - (a + 1)) + 1 := by omega
      rw [if_neg (by omega), if_pos (by omega), if_pos (by omega), e, List.getElem?_cons_succ]
    · subst h; simp
    · rw [if_neg (by omega), if_neg (by omega), if_neg (by omega)]

/-- Reading an appended list reads the first part, else the second. -/
theorem Memory.read_append (m n : Memory) (x : Nat) :
    Memory.read (m ++ n) x = (Memory.read m x).or (Memory.read n x) := by
  induction m with
  | nil => simp [Memory.read]
  | cons c m ih =>
    obtain ⟨k, b⟩ := c
    by_cases h : k = x <;> simp [Memory.read, h, ih]

/-- A filter on addresses keeps exactly the reads of the addresses it admits. -/
theorem Memory.read_filter (m : Memory) (p : Nat → Bool) (x : Nat) :
    Memory.read (m.filter fun c => p c.1) x = if p x then Memory.read m x else none := by
  induction m with
  | nil => simp [Memory.read]
  | cons c m ih =>
    obtain ⟨k, b⟩ := c
    by_cases hk : p k = true <;> by_cases h : k = x
    · subst h; simp [List.filter, hk, Memory.read]
    · simp [List.filter, hk, Memory.read, h, ih]
    · subst h; simp [List.filter, hk, ih]
    · simp [List.filter, hk, Memory.read, h, ih]

/-- A read after a write: the byte written inside the range, the old value outside it. -/
theorem Memory.read_write (m : Memory) (a : Nat) (bs : List Byte) (x : Nat) :
    Memory.read (m.write a bs) x = if a ≤ x ∧ x < a + bs.length then bs[x - a]? else Memory.read m x := by
  unfold Memory.write
  rw [Memory.read_append, Memory.read_append, Memory.read_cellsAt,
    Memory.read_filter m (fun k => decide (k < a)), Memory.read_filter m (fun k => decide (a + bs.length ≤ k))]
  by_cases h1 : x < a
  · rw [if_pos (by simpa using h1), if_neg (by omega), if_neg (by simp; omega), if_neg (by omega)]
    simp
  · by_cases h2 : x < a + bs.length
    · rw [if_neg (by simpa using h1), if_pos (by omega), if_neg (by simp; omega), if_pos ⟨by omega, h2⟩]
      simp
    · have h3 : bs[x - a]? = none := by simp; omega
      rw [if_neg (by simpa using h1), if_pos (by omega), if_pos (by simp; omega), if_neg (by omega), h3]
      simp

/-- The addresses of consecutive cells. -/
theorem cellsAt_mem {a : Nat} {bs : List Byte} {c : Host.Cell} (h : c ∈ cellsAt a bs) :
    a ≤ c.1 ∧ c.1 < a + bs.length := by
  induction bs generalizing a with
  | nil => simp [cellsAt] at h
  | cons b bs ih =>
    simp only [cellsAt, List.mem_cons] at h
    rcases h with rfl | h
    · simp
    · have := ih h
      simp only [List.length_cons]; omega

/-- Consecutive cells stand at strictly rising addresses. -/
theorem cellsAt_pairwise (a : Nat) (bs : List Byte) : (cellsAt a bs).Pairwise fun x y => x.1 < y.1 := by
  induction bs generalizing a with
  | nil => simp [cellsAt]
  | cons b bs ih =>
    simp only [cellsAt, List.pairwise_cons]
    refine ⟨fun c hc => ?_, ih (a + 1)⟩
    have := cellsAt_mem hc
    omega

/-- A write inside the writable buffers keeps the canonical form. -/
theorem Memory.wf_write {m : Memory} (h : m.wf) (a : Nat) (bs : List Byte)
    (hb : ∀ i, i < bs.length → bufferAddr (a + i) = true) : (m.write a bs).wf := by
  obtain ⟨hp, hm⟩ := h
  unfold Memory.write
  refine ⟨?_, ?_⟩
  · rw [List.pairwise_append, List.pairwise_append]
    refine ⟨hp.filter _, ⟨cellsAt_pairwise a bs, hp.filter _, ?_⟩, ?_⟩
    · intro x hx y hy
      have h1 := cellsAt_mem hx
      have h2 := (List.mem_filter.mp hy).2
      simp only [decide_eq_true_eq] at h2
      omega
    · intro x hx y hy
      have h1 := (List.mem_filter.mp hx).2
      simp only [decide_eq_true_eq] at h1
      rcases List.mem_append.mp hy with hy | hy
      · have := cellsAt_mem hy; omega
      · have h2 := (List.mem_filter.mp hy).2
        simp only [decide_eq_true_eq] at h2
        omega
  · intro c hc
    rcases List.mem_append.mp hc with hc | hc
    · exact hm c (List.mem_filter.mp hc).1
    · rcases List.mem_append.mp hc with hc | hc
      · have h1 := cellsAt_mem hc
        have e : c.1 = a + (c.1 - a) := by omega
        rw [e]
        exact hb _ (by omega)
      · exact hm c (List.mem_filter.mp hc).1

/-- The size of a space is never more than the span of its addresses. -/
theorem spaceSize_le (n : Nat) : spaceSize n ≤ 4096 := by
  unfold spaceSize; split <;> omega

/-- Every byte of a writable range lies in a writable buffer. -/
theorem bufferAddr_of_writableRange {a : HostAddr} {n : Nat} (h : writableRange a n = true) (i : Nat) (hi : i < n) :
    bufferAddr (a.toNat + i) = true := by
  unfold writableRange readableRange at h
  rw [Bool.and_eq_true, decide_eq_true_iff, decide_eq_true_iff] at h
  obtain ⟨⟨h1, _, h3⟩, h5⟩ := h
  unfold spaceOf at h1 h3 h5
  unfold offsetOf at h3
  have hs := spaceSize_le (a.toNat / 4096)
  have e1 : (a.toNat + i) / 4096 = a.toNat / 4096 := by omega
  have e2 : (a.toNat + i) % 4096 = a.toNat % 4096 + i := by omega
  simp only [bufferAddr, decide_eq_true_eq, e1, e2]
  omega

/-- The state's buffers stay in canonical form under a write to a writable range. -/
theorem State.writeBytes_wf {s : State} (h : s.mem.wf) (a : HostAddr) (bs : List Byte)
    (hr : writableRange a bs.length = true) : (s.writeBytes a bs).mem.wf :=
  Memory.wf_write h a.toNat bs fun i hi => bufferAddr_of_writableRange hr i hi

/-- Memory after reset is in canonical form. -/
theorem State.reset_mem_wf : State.reset.mem.wf := by
  simp [State.reset, Memory.wf]

/-- A range that can be read gives as many bytes as were asked for. -/
theorem State.readBytes_length {s : State} {a : HostAddr} {n : Nat} {bs : List Byte}
    (h : s.readBytes a n = some bs) : bs.length = n := by
  induction n generalizing bs with
  | zero => simp only [State.readBytes, Option.some.injEq] at h; subst h; rfl
  | succ n ih =>
    simp only [State.readBytes] at h
    split at h
    · rename_i l b hl hb
      simp only [Option.some.injEq] at h; subst h
      simp [ih hl]
    · cases h

end Sys2Proof.Machine
end

