-- ==== Sys2Proof/Laws/Engine.lean ====
section
/-! SUPPORT. What the command engine's operations do: the environment's answers, a program's block steps and replies,
submission, and `exec` as one instance of `runCommand`. -/

namespace Sys2Proof.Machine

/-! ## The environment's answers -/

/-- As many answer bytes as asked for. -/
theorem Env.drawBytes_length (n : Nat) (e : Env) : (e.drawBytes n).1.length = n := by
  induction n generalizing e with
  | zero => rfl
  | succ n ih => simp [Env.drawBytes, ih]

/-- One answer byte changes only the pending answers and their counter. -/
theorem Env.drawByte_frame (e : Env) :
    e.drawByte.2 = { e with busAnswers := e.drawByte.2.busAnswers, busDrawn := e.drawByte.2.busDrawn } := by
  unfold Env.drawByte; split <;> rfl

/-- Answer bytes change only the pending answers and their counter. -/
theorem Env.drawBytes_frame (n : Nat) (e : Env) :
    (e.drawBytes n).2 =
      { e with busAnswers := (e.drawBytes n).2.busAnswers, busDrawn := (e.drawBytes n).2.busDrawn } := by
  induction n generalizing e with
  | zero => rfl
  | succ n ih =>
    have h1 := ih e.drawByte.2
    have h2 := e.drawByte_frame
    simp only [Env.drawBytes]
    generalize e.drawByte.2 = d at *
    rw [h1, h2]

/-- A `DREADY` sample changes only the pending levels and their counter. -/
theorem Env.drawLevel_frame (e : Env) :
    e.drawLevel.2 = { e with dreadyLevels := e.drawLevel.2.dreadyLevels, dreadyDrawn := e.drawLevel.2.dreadyDrawn } := by
  unfold Env.drawLevel; split <;> rfl

/-- A clock reading changes only the pending advances, their counter and the clock. -/
theorem Env.readClock_frame (e : Env) :
    e.readClock.2 =
      { e with clockAdvances := e.readClock.2.clockAdvances, clockDrawn := e.readClock.2.clockDrawn
               now := e.readClock.1 } := by
  unfold Env.readClock Env.tickClock; split <;> rfl

/-- A transaction gives one answer byte for each byte out. -/
theorem State.busTxn_length (s : State) (out : List Byte) : (s.busTxn out).1.length = out.length :=
  s.env.drawBytes_length out.length

/-- A transaction is recorded. -/
theorem State.busTxn_log (s : State) (out : List Byte) : (s.busTxn out).2.env.busLog = s.env.busLog ++ [out] := by
  have h := s.env.drawBytes_frame out.length
  simp only [State.busTxn_env]
  rw [h]

/-- A transaction leaves the host's events alone. -/
theorem State.busTxn_host (s : State) (out : List Byte) : (s.busTxn out).2.env.host = s.env.host := by
  have h := s.env.drawBytes_frame out.length
  simp only [State.busTxn_env]
  rw [h]

/-- A clock reading leaves the transactions made so far alone. -/
theorem Env.readClock_log (e : Env) : e.readClock.2.busLog = e.busLog := by rw [e.readClock_frame]

/-- A clock reading leaves the host's events alone. -/
theorem Env.readClock_host (e : Env) : e.readClock.2.host = e.host := by rw [e.readClock_frame]

/-- A `DREADY` sample leaves the transactions made so far alone. -/
theorem Env.drawLevel_log (e : Env) : e.drawLevel.2.busLog = e.busLog := by rw [e.drawLevel_frame]

/-- A `DREADY` sample leaves the host's events alone. -/
theorem Env.drawLevel_host (e : Env) : e.drawLevel.2.host = e.host := by rw [e.drawLevel_frame]

/-! ## Programs -/

/-- `fx` is an effect the program can end with, whatever it is answered. -/
inductive Prog.Ends : Prog → (State → State) → Prop where
  | done (fx) : Prog.Ends (.done fx) fx
  | bus (out k fx ins) : Prog.Ends (k ins) fx → Prog.Ends (.bus out k) fx
  | clock (k fx t) : Prog.Ends (k t) fx → Prog.Ends (.clock k) fx
  | level (k fx l) : Prog.Ends (k l) fx → Prog.Ends (.level k) fx
  | csr (f k fx w) : Prog.Ends (k w) fx → Prog.Ends (.csr f k) fx

/-- What is left of a program after some replies ends as the program can end. -/
theorem Prog.ends_of_resume {p q : Prog} {rs : List Reply} {fx : State → State} (h : p.resume rs = some q)
    (hq : q.Ends fx) : p.Ends fx := by
  induction rs generalizing p with
  | nil => simp only [Prog.resume, Option.some.injEq] at h; subst h; exact hq
  | cons r rs ih =>
    cases p <;> cases r <;> simp only [Prog.resume, reduceCtorEq] at h
    · exact .bus _ _ _ _ (ih h)
    · exact .clock _ _ _ (ih h)
    · exact .level _ _ _ (ih h)
    · exact .csr _ _ _ _ (ih h)

/-- A state that a block step reaches before its last effect: the block is the same, but for the recorded replies; the
host's events are the same; at most one transaction has been made (none if it was used up). -/
structure MidStep (b : Bool) (s t : State) : Prop where
  params : t.params = s.params
  csr : t.csr = s.csr
  sess : t.sess = s.sess
  mem : t.mem = s.mem
  port : t.port = s.port
  engine : t.engine = { s.engine with replies := t.engine.replies }
  host : t.env.host = s.env.host
  log : t.env.busLog = s.env.busLog ∨ (b = true ∧ ∃ out, t.env.busLog = s.env.busLog ++ [out])

/-- A state is a mid-step state of itself. -/
theorem MidStep.refl (b : Bool) (s : State) : MidStep b s s :=
  ⟨rfl, rfl, rfl, rfl, rfl, rfl, rfl, .inl rfl⟩

/-- All that a block step can do: it ends the command with one of the program's effects on a mid-step state, or it
leaves a mid-step state with the command still running. -/
theorem Prog.drive_next {p : Prog} {b : Bool} {s t : State} (h : p.drive b s = .next t) :
    (∃ fx u, p.Ends fx ∧ MidStep b s u ∧ t = (fx u).complete) ∨ MidStep b s t := by
  induction p generalizing b s with
  | done fx =>
    simp only [Prog.drive, Host.Outcome.next.injEq] at h
    exact .inl ⟨fx, s, .done fx, .refl b s, h.symm⟩
  | stop f => simp [Prog.drive] at h
  | bus out k ih =>
    cases b with
    | false => simp only [Prog.drive, Host.Outcome.next.injEq] at h; subst h; exact .inr (.refl _ _)
    | true =>
      simp only [Prog.drive] at h
      have lift : ∀ u, MidStep false ((s.busTxn out).2.record (.bytes (s.busTxn out).1)) u → MidStep true s u := by
        intro u hu
        refine ⟨hu.params, hu.csr, hu.sess, hu.mem, hu.port, hu.engine, ?_, ?_⟩
        · rw [hu.host]; exact s.busTxn_host out
        · rcases hu.log with hl | ⟨hf, _⟩
          · exact .inr ⟨rfl, out, by rw [hl]; exact s.busTxn_log out⟩
          · cases hf
      rcases ih _ h with ⟨fx, u, he, hu, rfl⟩ | hu
      · exact .inl ⟨fx, u, .bus _ _ _ _ he, lift u hu, rfl⟩
      · exact .inr (lift t hu)
  | clock k ih =>
    simp only [Prog.drive] at h
    have lift : ∀ u, MidStep b (State.record { s with env := s.env.readClock.2 } (.time s.env.readClock.1)) u →
        MidStep b s u := by
      intro u hu
      refine ⟨hu.params, hu.csr, hu.sess, hu.mem, hu.port, hu.engine, ?_, ?_⟩
      · rw [hu.host]; exact s.env.readClock_host
      · have e := s.env.readClock_log
        rcases hu.log with hl | ⟨hb, o, hl⟩
        · exact .inl (hl.trans e)
        · exact .inr ⟨hb, o, hl.trans (by simp only [State.record]; rw [e])⟩
    rcases ih _ h with ⟨fx, u, he, hu, rfl⟩ | hu
    · exact .inl ⟨fx, u, .clock _ _ _ he, lift u hu, rfl⟩
    · exact .inr (lift t hu)
  | level k ih =>
    simp only [Prog.drive] at h
    have lift : ∀ u, MidStep b (State.record { s with env := s.env.drawLevel.2 } (.level s.env.drawLevel.1)) u →
        MidStep b s u := by
      intro u hu
      refine ⟨hu.params, hu.csr, hu.sess, hu.mem, hu.port, hu.engine, ?_, ?_⟩
      · rw [hu.host]; exact s.env.drawLevel_host
      · have e := s.env.drawLevel_log
        rcases hu.log with hl | ⟨hb, o, hl⟩
        · exact .inl (hl.trans e)
        · exact .inr ⟨hb, o, hl.trans (by simp only [State.record]; rw [e])⟩
    rcases ih _ h with ⟨fx, u, he, hu, rfl⟩ | hu
    · exact .inl ⟨fx, u, .level _ _ _ he, lift u hu, rfl⟩
    · exact .inr (lift t hu)
  | csr f k ih =>
    simp only [Prog.drive] at h
    have lift : ∀ u, MidStep b (s.record (.word (f s.csr))) u → MidStep b s u := fun u hu =>
      ⟨hu.params, hu.csr, hu.sess, hu.mem, hu.port, hu.engine, hu.host, hu.log⟩
    rcases ih _ h with ⟨fx, u, he, hu, rfl⟩ | hu
    · exact .inl ⟨fx, u, .csr _ _ _ _ he, lift u hu, rfl⟩
    · exact .inr (lift t hu)
  | again n =>
    simp only [Prog.drive, Host.Outcome.next.injEq] at h
    subst h
    exact .inr ⟨rfl, rfl, rfl, rfl, rfl, rfl, rfl, .inl rfl⟩

/-! ## Completion

These are not marked as true by definition, so that a rewrite with them does not ask the kernel to unfold the values. -/

/-- Completion leaves the CSRs but for `DONE`. -/
theorem State.complete_eq (s : State) : s.complete = s.completeWith s.csr := Eq.trans rfl rfl

/-- Completion with `RESULT0`. -/
theorem State.complete_setResult0 (s : State) (w : Word) :
    (s.setResult0 w).complete = s.completeWith { s.csr with result0 := w } := Eq.trans rfl rfl

/-- Completion with both results. -/
theorem State.complete_setResult01 (s : State) (v w : Word) :
    ((s.setResult0 v).setResult1 w).complete = s.completeWith { s.csr with result0 := v, result1 := w } :=
  Eq.trans rfl rfl

/-! ## Submission and dispatch -/

/-- An idle engine: a command is submitted. -/
theorem runCommand_idle {i : Instr} {check : State → Option ErrCode} {prog : State → Prog} {s : State}
    (h : s.engine.busy = false) : runCommand i check prog s = .next (s.submit i (check s)) := by
  simp [runCommand, h]

/-- A busy engine: all that a command's block step can do, if it goes on. -/
theorem runCommand_busy {i : Instr} {check : State → Option ErrCode} {prog : State → Prog} {s t : State}
    (hb : s.engine.busy = true) (h : runCommand i check prog s = .next t) :
    (∃ fx u, (prog s).Ends fx ∧ MidStep true s u ∧ t = (fx u).complete) ∨ MidStep true s t := by
  simp only [runCommand, hb, if_true] at h
  split at h
  · rename_i p hp
    rcases Prog.drive_next h with ⟨fx, u, he, hu, ht⟩ | hu
    · exact .inl ⟨fx, u, Prog.ends_of_resume hp he, hu, ht⟩
    · exact .inr hu
  · cases h

/-- All that a submission can do: a refusal, or acceptance. -/
theorem State.submit_cases (s : State) (i : Instr) (c : Option ErrCode) :
    (∃ code, s.submit i c = s.refuse code) ∨ s.submit i c = s.accept i := by
  unfold State.submit
  split
  · exact .inl ⟨_, rfl⟩
  · split
    · exact .inl ⟨_, rfl⟩
    · exact .inr rfl

/-- Every arm of `exec` is its command's checks and program in `runCommand`. -/
theorem exec_eq (i : Instr) (s : State) : exec i s = runCommand i (checkOf i) (progOf i) s := by
  cases i <;> rfl

/-- `Core.run` one step at a time. -/
theorem run_succ (n : Nat) (s t : State) (h : step s = .next t) :
    Host.Core.run Sys2Proof.core (n + 1) s = Host.Core.run Sys2Proof.core n t := by
  have e : Host.Core.step Sys2Proof.core s = .next t := h
  simp [Host.Core.run, e]

/-- With nothing pending at the host and the block out of reset, a step of a running command is `exec` of it. -/
theorem step_of_blockAlone {s : State} {i : Instr} (ha : BlockAlone s) (hb : s.engine.busy = true)
    (ho : instrOfOpcode s.engine.opc = some i) : step s = exec i s := by
  obtain ⟨hh, hr⟩ := ha
  simp [step, turn, hh, blockTurn, hr, hb, ho]

end Sys2Proof.Machine
end

