-- ==== Sys2Proof/WellFormed.lean ====
section
/-! DEFINITION. Well-formedness. A command carries no operand in its word (30_encoding.md R57), so every `Instr` is well
formed as syntax and `Instr.wf` says so. What can be ill formed is a choice of the OPEN parameters: 00_scope.md R8 limits
them, and `Params.wf` holds one check for each limit. -/

namespace Sys2Proof

/-- Every command word of the opcode map is legal whatever the operand registers hold: operands are checked when the
command is submitted (60_exceptions.md R152), not by its encoding. -/
def Instr.wf (_ : Instr) : Bool := true

/-- The address lies in the status sub-range 0x30 to 0x3D (00_scope.md R8 `STATUS_LO`, `STATUS_HI`). -/
def statusAddr (a : ChipAddr) : Bool := decide (0x30 ≤ a.toNat ∧ a.toNat ≤ 0x3D)

/-- `OP_WRITE`, `OP_READ`, `OP_BURST` are pairwise disjoint and disjoint from 0x3F (00_scope.md R8). -/
def Params.opcodeBitsWf (p : Params) : Bool :=
  (p.opWrite &&& p.opRead) == 0 && (p.opWrite &&& p.opBurst) == 0 && (p.opRead &&& p.opBurst) == 0 &&
  ((p.opWrite ||| p.opRead ||| p.opBurst) &&& 0x3F#8) == 0

/-- The identity, state, count and link registers lie in the status sub-range (00_scope.md R8). -/
def Params.statusRegsWf (p : Params) : Bool :=
  [p.idAddr0, p.idAddr1, p.marcAddr, p.txBytesAddr, p.rxBytesAddr, p.rssiAddr, p.lqiAddr].all statusAddr

/-- `FIFO_SIZE` is in 16..256 (00_scope.md R8). -/
def Params.fifoSizeWf (p : Params) : Bool := decide (16 ≤ p.fifoSize ∧ p.fifoSize ≤ 256)

/-- Every address of a register list lies outside the status sub-range (00_scope.md R8). -/
def seqWf (l : List (ChipAddr × Byte)) : Bool := l.all fun e => !statusAddr e.1

/-- The six register lists are lists of addresses outside the status sub-range (00_scope.md R8). -/
def Params.seqsWf (p : Params) : Bool :=
  [p.cfgTable, p.preambleSeq, p.reqSeq, p.defaultSeq, p.ackRxSeq, p.dataRxSeq].all seqWf

/-- The parameters obey every limit that 00_scope.md R8 sets. -/
def Params.wf (p : Params) : Bool :=
  p.opcodeBitsWf && p.statusRegsWf && p.fifoSizeWf && p.seqsWf

end Sys2Proof
end

