-- ==== Sys2Proof/Laws/PerInstr.lean ====
section
/-! SUPPORT. The family stated for each instruction: its word is well formed and `OPC` names it in the opcode map. -/

namespace Sys2Proof.Laws.Opcode

/-- The instruction is well formed and its `OPC` is listed for it (30_encoding.md R59). -/
def Statement (i : Instr) : Prop := i.wf = true ∧ instrOfOpcode (opcodeOf i) = some i

theorem nop : Statement .nop := ⟨rfl, rfl⟩
theorem wreg : Statement .wreg := ⟨rfl, rfl⟩
theorem rreg : Statement .rreg := ⟨rfl, rfl⟩
theorem rburst : Statement .rburst := ⟨rfl, rfl⟩
theorem wburst : Statement .wburst := ⟨rfl, rfl⟩
theorem strobe : Statement .strobe := ⟨rfl, rfl⟩
theorem reset : Statement .reset := ⟨rfl, rfl⟩
theorem probe : Statement .probe := ⟨rfl, rfl⟩
theorem configure : Statement .configure := ⟨rfl, rfl⟩
theorem enterRx : Statement .enterRx := ⟨rfl, rfl⟩
theorem init : Statement .init := ⟨rfl, rfl⟩
theorem diag : Statement .diag := ⟨rfl, rfl⟩
theorem rssiDbm : Statement .rssiDbm := ⟨rfl, rfl⟩
theorem freqWord : Statement .freqWord := ⟨rfl, rfl⟩
theorem freqHz : Statement .freqHz := ⟨rfl, rfl⟩
theorem crc16 : Statement .crc16 := ⟨rfl, rfl⟩
theorem buildReq : Statement .buildReq := ⟨rfl, rfl⟩
theorem encode : Statement .encode := ⟨rfl, rfl⟩
theorem decode : Statement .decode := ⟨rfl, rfl⟩
theorem sentchk : Statement .sentchk := ⟨rfl, rfl⟩
theorem extract : Statement .extract := ⟨rfl, rfl⟩
theorem startRead : Statement .startRead := ⟨rfl, rfl⟩
theorem tick : Statement .tick := ⟨rfl, rfl⟩

end Sys2Proof.Laws.Opcode
end

