-- ==== Sys2Proof/Tests/Slice0.lean ====
section
/-! SUPPORT. Tests of single steps, with the values of spec/95_test_vectors.md (its row is named at each test), and for
each statement with hypotheses a witness that they can be met together. -/

namespace Sys2Proof.Tests

open Sys2Proof.Machine

/-! ## Concrete states -/

/-- One instance of the OPEN parameters: the candidate values of 93_implementation_defined.md G1 and G3, with short
lists of our own for the tables that have no candidate. -/
def chip : Params :=
  { opWrite := 0x00, opRead := 0x80, opBurst := 0x40
    strobeCode := { reset := 0x30, flushRx := 0x3A, flushTx := 0x3B, idle := 0x36, rx := 0x34, tx := 0x35, nop := 0x3D }
    idAddr0 := 0x30, idAddr1 := 0x31, freqAddrTop := 0x0D, freqAddrMid := 0x0E, freqAddrLow := 0x0F
    paAddr := 0x3E, paMin := 1, marcAddr := 0x35, txBytesAddr := 0x3A, rxBytesAddr := 0x3B, rssiAddr := 0x34
    lqiAddr := 0x33, fifoAddr := 0x3F, fifoSize := 64, cntMask := 0x7F, ufMask := 0x80
    rxStates := [0x0D, 0x0E, 0x0F], txStates := [0x13, 0x14, 0x15]
    cfgTable := [(1, 2)], preambleSeq := [(5, 6)], reqSeq := [(7, 8)], defaultSeq := [(9, 10)]
    ackRxSeq := [(13, 14)], dataRxSeq := [(15, 16)], wakeByte := 0x55
    syncPattern := #v[1, 2, 3, 4, 5, 6, 7, 8, 9]
    reqTemplate := #v[1, 2, 3, 4, 5, 6, 7, 8, 9, 10, 11, 12, 13, 14, 15, 16, 17, 18, 19] }

/-- A block after reset, with some answers of the transceiver pending and a clock that reads `now` again and again. -/
def start (answers : List Byte := []) (now : Word := 0) : State :=
  { State.reset with
    params := chip, env := { Env.initial with busAnswers := answers, clockAdvances := [0, 0, 0, 0], now := now } }

/-- The four operand registers. -/
def ops (a0 : Word := 0) (a1 : Word := 0) (a2 : Word := 0) (a3 : Word := 0) : Args :=
  { a0 := a0, a1 := a1, a2 := a2, a3 := a3 }

/-- A block with these operand registers and no command running. -/
def idleWith (a : Args) (s : State := start) : State := { s with csr := { s.csr with args := a } }

/-- A block that runs a command: what it has learned so far, and its operands. -/
def running (i : Instr) (s : State := start) (rs : List Reply := []) (a : Args := ops) : State :=
  { s with engine := { busy := true, opc := opcodeOf i, args := a, t0 := 0, replies := rs } }

/-- The block with bytes in a buffer. -/
def holding (a : Nat) (bs : List Byte) (s : State := start) : State := { s with mem := s.mem.write a bs }

/-- The block in a session state, entered at time `t0`. -/
def inSession (st : SessState) (s : State := start) (t0 : Word := 0) : State :=
  { s with sess := { s.sess with state := st, t0 := t0 } }

/-- The block with these events pending at the host. -/
def hosted (evs : List HostEvent) (s : State := start) : State := { s with env := { s.env with host := evs } }

/-- A part of the next state, if there is one. -/
def after {α : Type} (o : Host.Outcome State Fault Refusal) (f : State → α) : Option α :=
  match o with
  | .next t => some (f t)
  | .fault _ => none
  | .refused _ => none

/-- The fault, if there is one. -/
def faultOf (o : Host.Outcome State Fault Refusal) : Option Fault :=
  match o with
  | .next _ => none
  | .fault f => some f
  | .refused _ => none

/-- Both result registers. -/
def results (t : State) : Word × Word := (t.csr.result0, t.csr.result1)

/-! ## Decoding: words written out from 30_encoding.md R57 and R59 -/

theorem test_decode_bus_access :
    decode 0b00000000000000000000000000000001#32 = .ok .wreg ∧ decode 0b00000000000000000000000000000010#32 = .ok .rreg ∧
    decode 0b00000000000000000000000000000011#32 = .ok .rburst ∧
    decode 0b00000000000000000000000000000100#32 = .ok .wburst ∧
    decode 0b00000000000000000000000000000101#32 = .ok .strobe := ⟨rfl, rfl, rfl, rfl, rfl⟩

theorem test_decode_lifecycle :
    decode 0b00000000000000000000000000010000#32 = .ok .reset ∧ decode 0b00000000000000000000000000010001#32 = .ok .probe ∧
    decode 0b00000000000000000000000000010010#32 = .ok .configure ∧
    decode 0b00000000000000000000000000010011#32 = .ok .enterRx ∧
    decode 0b00000000000000000000000000010100#32 = .ok .init ∧ decode 0b00000000000000000000000000010101#32 = .ok .diag ∧
    decode 0b00000000000000000000000000010110#32 = .ok .rssiDbm ∧
    decode 0b00000000000000000000000000010111#32 = .ok .freqWord ∧
    decode 0b00000000000000000000000000011000#32 = .ok .freqHz := ⟨rfl, rfl, rfl, rfl, rfl, rfl, rfl, rfl, rfl⟩

theorem test_decode_codec :
    decode 0b00000000000000000000000000100000#32 = .ok .crc16 ∧
    decode 0b00000000000000000000000000100001#32 = .ok .buildReq ∧
    decode 0b00000000000000000000000000100010#32 = .ok .encode ∧
    decode 0b00000000000000000000000000100011#32 = .ok .decode ∧
    decode 0b00000000000000000000000000100100#32 = .ok .sentchk ∧
    decode 0b00000000000000000000000000100101#32 = .ok .extract := ⟨rfl, rfl, rfl, rfl, rfl, rfl⟩

theorem test_decode_sequencer :
    decode 0b00000000000000000000000000000000#32 = .ok .nop ∧
    decode 0b00000000000000000000000000110000#32 = .ok .startRead ∧
    decode 0b00000000000000000000000000110001#32 = .ok .tick := ⟨rfl, rfl, rfl⟩

/-- X2, X3, X4, X5, and the first opcode past each family. -/
theorem test_decode_refuses :
    decode 0x00000006 = .error .illegalOpcode ∧ decode 0x000000FF = .error .illegalOpcode ∧
    decode 0x00000019 = .error .illegalOpcode ∧ decode 0x00000026 = .error .illegalOpcode ∧
    decode 0x00000032 = .error .illegalOpcode ∧ decode 0x80000006 = .error .illegalOpcode ∧
    decode 0x00000100 = .error .reservedBits := ⟨rfl, rfl, rfl, rfl, rfl, rfl, rfl⟩

theorem test_table_word :
    decodeTableWord 32 0x00000031 = some .tick ∧ decodeTableWord 8 0x13 = some .enterRx ∧
    decodeTableWord 32 0x00000106 = none := ⟨rfl, rfl, rfl⟩

/-- The step that `withFetchWord` prepares submits the word it was given. -/
theorem test_fetch_word :
    after (step (State.reset.withFetchWord 32 0x31)) (fun t => (t.engine.busy, t.engine.opc)) = some (true, 0x31) ∧
    after (step (State.reset.withFetchWord 32 0x106)) (fun t => t.csr.status.errcode) = some .illegalOpcode := by decide

/-! ## Well-formedness: one ill-formed choice of the parameters for each check -/

theorem test_wf_accepts : chip.wf = true ∧ Instr.wf .wreg = true := by decide

theorem test_wf_opcode_bits : ({ chip with opRead := 0xC0 } : Params).wf = false ∧
    ({ chip with opBurst := 0x20 } : Params).wf = false := by decide

theorem test_wf_status_regs : ({ chip with marcAddr := 0x2F } : Params).wf = false := by decide

theorem test_wf_fifo_size : ({ chip with fifoSize := 15 } : Params).wf = false ∧
    ({ chip with fifoSize := 257 } : Params).wf = false := by decide

theorem test_wf_seqs : ({ chip with reqSeq := [(0x3D, 0)] } : Params).wf = false := by decide

/-! ## Acceptance and refusal -/

/-- The error code of a submission, `none` when it is accepted. -/
def submitted (i : Instr) (s : State) : Option ErrCode :=
  (after (exec i s) fun t => if t.engine.busy then ErrCode.none else t.csr.status.errcode)

/-- X6, X19, and the checks of 45_read_sequencer.md R150 with `CHIP` = 1. -/
theorem test_start_read_checks :
    submitted .startRead (idleWith (ops 2)) = some .noChip ∧
    submitted .startRead (idleWith (ops 2) (start.setChip true)) = some .badOperand ∧
    submitted .startRead (idleWith (ops 1) (start.setChip true)) = some .range ∧
    submitted .startRead (inSession .publish) = some .busy := by decide

/-- X7, X8, B9, B11. -/
theorem test_rburst_checks :
    submitted .rburst (idleWith (ops 0x3F 0)) = some .range ∧ submitted .rburst (idleWith (ops 0x40 0)) = some .badOperand ∧
    submitted .rburst (idleWith (ops 0x34 2)) = some .badOperand ∧
    submitted .rburst (idleWith (ops 0x00 257)) = some .range ∧
    submitted .rburst (idleWith (ops 0x00 256)) = some .none := by decide

/-- X9, B13, X10. -/
theorem test_bus_write_checks :
    submitted .wreg (idleWith (ops 0x30 1)) = some .badOperand ∧ submitted .wburst (idleWith (ops 0x31 1)) = some .badOperand ∧
    submitted .strobe (idleWith (ops 7)) = some .range ∧ submitted .rreg (idleWith (ops 0x40)) = some .badOperand := by
  decide

/-- X11, X12, X13. -/
theorem test_conversion_checks :
    submitted .rssiDbm (idleWith (ops 0x100)) = some .badOperand ∧
    submitted .freqHz (idleWith (ops 0x00A530E9)) = some .range ∧
    submitted .freqHz (idleWith (ops 0x01000000)) = some .badOperand := by decide

/-- X14 to X18. -/
theorem test_codec_checks :
    submitted .encode (idleWith (ops 0x4000 0 0x4010)) = some .range ∧
    submitted .encode (idleWith (ops 0x4000 300 0x3000)) = some .badOperand ∧
    submitted .encode (idleWith (ops 0x4000 2 0x6000)) = some .badOperand ∧
    submitted .decode (idleWith (ops 0x2000 16 0x3000 3)) = some .range ∧
    submitted .extract (idleWith (ops 0x3000 0x10000)) = some .range := by decide

/-- "During a session, `CRC16` → BUSY and `TICK`, … are accepted" (95_test_vectors.md, after X19). -/
theorem test_session_exclusion :
    submitted .crc16 (inSession .decode) = some .busy ∧ submitted .tick (inSession .decode) = some .none := by decide

/-! ## Commands -/

/-- B1. -/
theorem test_wreg : after (exec .wreg (running .wreg (a := ops 0x0D 0x10))) (fun t => (t.env.busLog, t.engine.busy)) =
    some ([[0x0D, 0x10]], false) := by decide

/-- B3, B4. -/
theorem test_rreg :
    after (exec .rreg (running .rreg (start [0xAA, 0x21]) (a := ops 0x0D))) (fun t => (t.env.busLog, results t)) =
      some ([[0x8D, 0x00]], (0x21, 0)) ∧
    after (exec .rreg (running .rreg (start [0xAA, 0x0D]) (a := ops 0x35))) (fun t => (t.env.busLog, results t)) =
      some ([[0xF5, 0x00]], (0x0D, 0)) := by decide

/-- B7. -/
theorem test_rburst :
    after (exec .rburst (running .rburst (start [0xAA, 1, 2, 3]) (a := ops 0x3F 3)))
        (fun t => (t.env.busLog, results t, t.readBytes 0x4000 3)) =
      some ([[0xFF, 0, 0, 0]], (3, 0), some [1, 2, 3]) := by decide

/-- B12, and an unwritten byte of XB. -/
theorem test_wburst :
    after (exec .wburst (running .wburst (holding 0x4000 [0x12, 0x34] (start [0, 0, 0])) (a := ops 0x3F 2)))
        (fun t => (t.env.busLog, results t)) = some ([[0x7F, 0x12, 0x34]], (2, 0)) ∧
    faultOf (exec .wburst (running .wburst (holding 0x4000 [0x12]) (a := ops 0x3F 2))) = some .readUnwritten := by decide

/-- B14, B15. -/
theorem test_strobe :
    after (exec .strobe (running .strobe (start.setConf true) (a := ops 3))) (fun t => (t.env.busLog, t.csr.status.conf)) =
      some ([[0x36]], true) ∧
    after (exec .strobe (running .strobe (start.setConf true) (a := ops 0))) (fun t => (t.env.busLog, t.csr.status.conf)) =
      some ([[0x30]], false) := by decide

/-- L1: the first and the last block step. -/
theorem test_reset :
    after (exec .reset (running .reset (start.setConf true))) (fun t => (t.env.busLog, t.engine.busy, t.csr.status.conf)) =
      some ([[]], true, true) ∧
    after (exec .reset (running .reset (start.setConf true) [.bytes [], .bytes [0], .bytes [0]]))
        (fun t => (t.env.busLog, t.engine.busy, t.csr.status.conf)) = some ([[0x3B]], false, false) := by decide

/-- L2. -/
theorem test_probe_success :
    after (exec .probe (running .probe (start [0, 0x14]) [.bytes [0, 0x00]]))
        (fun t => (t.env.busLog, results t, t.csr.status.chip)) = some ([[0xF1, 0]], (0x00011400, 1), true) := by decide

/-- L5: a mixed pair is success. -/
theorem test_probe_mixed :
    after (exec .probe (running .probe (start [0, 0x00]) [.bytes [0, 0xFF]])) results = some (0x000100FF, 1) := by decide

/-- L7: the last frequency byte, then the power byte and the completion. -/
theorem test_configure :
    after (exec .configure (running .configure start (List.replicate 3 (.bytes [0, 0])) (ops 433805000)))
        (fun t => t.env.busLog) = some [[0x0F, 0x50]] ∧
    after (exec .configure (running .configure start (List.replicate 4 (.bytes [0, 0])) (ops 433805000)))
        (fun t => (t.env.busLog, t.csr.result0, t.csr.freqWordCur, t.csr.status.conf)) =
      some ([[0x3E, 1]], 0x0010AF50, 0x10AF50, true) := by decide

/-- L11, L10. -/
theorem test_enter_rx :
    after (exec .enterRx (running .enterRx (start [0, 0xED]) [.bytes [0], .bytes [0]])) results = some (0x0D, 1) ∧
    after (exec .enterRx (running .enterRx (start [0, 0x01] 300) [.bytes [0], .bytes [0]]))
        (fun t => (results t, t.engine.busy)) = some ((0x01, 0), false) ∧
    after (exec .enterRx (running .enterRx (start [0, 0x01] 299) [.bytes [0], .bytes [0]]))
        (fun t => (t.engine.busy, t.engine.replies.length)) = some (true, 2) := by decide

/-- L12: the last block step of a successful `INIT`. -/
theorem test_init :
    after (exec .init (running .init start ([.bytes [0, 0x00], .bytes [0, 0x14], .word 433820000] ++
        List.replicate 4 (.bytes [0, 0])))) (fun t => (results t, t.csr.status.chip, t.csr.status.conf)) =
      some ((0x00011400, 0x0010AF75), true, true) := by decide

/-- L14: the last block step of `DIAG`. -/
theorem test_diag :
    after (exec .diag (running .diag (start [0, 0x7D]) (List.replicate 13 (.bytes [0, 7]))))
        (fun t => (t.env.busLog, t.csr.result0, t.readByte 0x400C, t.readByte 0x400D)) =
      some ([[0xFD, 0]], 14, some 7, some 0x7D) := by decide

/-- The RSSI table's 0x7F, 0x80. -/
theorem test_rssi_dbm :
    after (exec .rssiDbm (running .rssiDbm (a := ops 0x7F))) results = some (0xFFFFFFEB, 0) ∧
    after (exec .rssiDbm (running .rssiDbm (a := ops 0x80))) results = some (0xFFFFFEEC, 0) := by decide

/-- Table F: 433 805 000 and 4 294 967 295. -/
theorem test_freq_word :
    after (exec .freqWord (running .freqWord (a := ops 433805000))) results = some (0x10AF50, 0) ∧
    after (exec .freqWord (running .freqWord (a := ops 0xFFFFFFFF))) results = some (0xA530E9, 0) := by decide

/-- Table F: 0x10AF50, the tie 0x100. -/
theorem test_freq_hz :
    after (exec .freqHz (running .freqHz (a := ops 0x10AF50))) results = some (433805176, 51200) ∧
    after (exec .freqHz (running .freqHz (a := ops 0x100))) results = some (101563, 32768) := by decide

set_option maxRecDepth 20000 in
/-- K10, K11. -/
theorem test_crc16 :
    after (exec .crc16 (running .crc16 (holding 0x4000 [0x31, 0x32, 0x33, 0x34, 0x35, 0x36, 0x37, 0x38, 0x39])
      (a := ops 0x4000 9))) results = some (0x8921, 0x2189) ∧
    after (exec .crc16 (running .crc16 (a := ops 0x6002 2))) results = some (0xDC5A, 0x5ADC) := by decide

set_option maxRecDepth 20000 in
/-- 43_framer.md R110's example: the meter's bytes in PAYB, the sync pattern's end and the sentinel in TXB. -/
theorem test_build_req :
    after (exec .buildReq (running .buildReq { start with csr := { start.csr with meterId := 0x1100BC61 } }))
        (fun t => (t.readBytes 0x5004 4, t.readByte 0x1008, t.readByte 0x1026, t.csr.result0)) =
      some (some [0x11, 0x00, 0xBC, 0x61], some 9, some 0xFF, 39) := by decide

/-- N5, with the overlapping destination of the framer section. -/
theorem test_encode :
    after (exec .encode (running .encode (holding 0x4000 [0x12, 0x34]) (a := ops 0x4000 2 0x4001)))
        (fun t => (t.readBytes 0x4000 5, t.csr.result0)) = some (some [0x12, 0x24, 0x71, 0x67, 0xFF], 4) := by decide

set_option maxRecDepth 20000 in
/-- D1, D8. -/
theorem test_decode :
    after (exec .decode (running .decode
        (holding 0x2000 [0x0F, 0x0F, 0x00, 0xF0, 0xFF, 0xFF, 0xFF, 0xFF, 0xFF, 0xFF, 0xFF, 0xFF])
        (a := ops 0x2000 12 0x3000 3))) (fun t => (results t, t.readBytes 0x3000 3)) =
      some ((0, 0), some [0xA5, 0x00, 0x00]) ∧
    after (exec .decode (running .decode (holding 0x2000 [0, 0, 0, 0, 0, 0xFF, 0xFF, 0xFF])
      (a := ops 0x2000 8 0x3000 2))) results = some (0, 1) := by decide

/-- The `SENTCHK` rows: n = 3 and n = 1. -/
theorem test_sentchk :
    after (exec .sentchk (running .sentchk (holding 0x4000 [0x00, 0xFF, 0xFF]) (a := ops 0x4000 3))) results = some (1, 1) ∧
    after (exec .sentchk (running .sentchk (holding 0x4000 [0x00, 0xFF, 0xFF]) (a := ops 0x4000 1))) results =
      some (0, 0xFFFFFFFF) := by decide

/-- The decoded bytes of T1. -/
def reply : List Byte := List.replicate 18 0 ++ [0x10, 0x27, 0x00, 0x00] ++ List.replicate 26 0 ++ [3]

/-- T1, T3. -/
theorem test_extract :
    after (exec .extract (running .extract (holding 0x3000 reply) (a := ops 0x3000 50)))
        (fun t => (readCsr t .rdLiters, readCsr t .rdFields, readCsr t .rdValid, t.csr.result0)) =
      some (10000, 0x00000003, 0x00320003, 1) ∧
    after (exec .extract (running .extract (holding 0x3000 reply) (a := ops 0x3000 47)))
        (fun t => (readCsr t .rdLiters, readCsr t .rdFields, readCsr t .rdValid, t.csr.result0)) =
      some (10000, 0, 0x002F0001, 0) := by decide

/-- X1. -/
theorem test_nop : after (exec .nop (running .nop)) (fun t => (t.statusWord, t.env.busLog)) = some (0x00000002, []) := by
  decide

/-- 45_read_sequencer.md R150's example, at `NOW` = 1000 as in program 3. -/
theorem test_start_read :
    after (exec .startRead (running .startRead (start [] 1000) (a := ops 1)))
        (fun t => (readCsr t .seq, readCsr t .seqT0, t.csr.result0, t.sact)) = some (0x00000101, 1000, 1, true) := by decide

/-- The session of S2 and S3. -/
def guarding (now : Word) : State :=
  running .tick (let s := inSession .guardBeforeReq (start [] now) 1000
    { s with sess := { s.sess with budgets := { s.sess.budgets with guardTime := 20 } } })

/-- S2, S3. -/
theorem test_tick_guard :
    after (exec .tick (guarding 1019)) results = some (3, 0) ∧
    after (exec .tick (guarding 1020)) (fun t => (results t, readCsr t .seqT0)) = some ((4, 1), 1020) := by decide

/-- S1, and program 4's tick 19: `RD_LINK`. -/
theorem test_tick_idle_publish :
    after (exec .tick (running .tick)) results = some (0, 0) ∧
    after (exec .tick (running .tick (let s := inSession .publish
        { s with sess := { s.sess with stg := { s.sess.stg with rssiRaw := 0x94, lqi := 0x2A, linkV := true, len := 50 } } })))
      (fun t => (readCsr t .rdLink, readCsr t .rdValid, results t)) = some (0xFF002A94, 0x00320007, (0, 1)) := by decide

/-! ## The host port -/

/-- H1, H3, H5. -/
theorem test_host_reads :
    after (step (hosted [rd32 0x002C])) (fun t => (t.port.hrdata, t.port.herr, t.csr.status.hflt)) =
      some (0, true, true) ∧
    after (step (hosted [rd32 0x4000])) (fun t => t.port.herr) = some true ∧
    after (step (hosted [rd8 0x6002])) (fun t => (t.port.hrdata, t.port.herr)) = some (0x89, false) ∧
    after (step (hosted [rd8 0x6003])) (fun t => t.port.hrdata) = some 0x11 := by decide

/-- H4, H6, H8. -/
theorem test_host_writes :
    after (step (hosted [wr8 0x6000 0x12])) (fun t => (t.port.herr, t.mem)) = some (true, []) ∧
    after (step (hosted [wr8 0x2000 0x00] (inSession .decode))) (fun t => (t.port.herr, t.mem)) = some (true, []) ∧
    faultOf (step (hosted [rd8 0x4000])) = some .readUnwritten := by decide

/-- "Clearing": writing 4 to `STATUS` after X2 gives 2. -/
theorem test_clear_err :
    after (step (hosted [wr32 0x0000 0x06])) State.statusWord = some 0x00010006 ∧
    after (step (hosted [clrStatus 4] (start.refuse .illegalOpcode))) State.statusWord = some 0x00000002 := by decide

/-! ## Witnesses: the hypotheses of each statement can be met together -/

theorem witness_step_command : (hosted [wr32 0x000 0x01]).port.rstN = true ∧
    (hosted [wr32 0x000 0x01]).env.host = wr32 0x000 0x01 :: [] := ⟨rfl, rfl⟩

theorem witness_step_block : BlockAlone (running .tick) ∧ (running .tick).engine.opc = opcodeOf .tick := ⟨⟨rfl, rfl⟩, rfl⟩

/-- For `SubmissionRefusesOrLatches` and the acceptance clause of every command. -/
theorem witness_idle : Idle start ∧ Idle (idleWith (ops 0x40)) ∧ Idle (inSession .decode) := ⟨rfl, rfl, rfl⟩

/-- For every clause about a command's first block step. -/
theorem witness_fresh (i : Instr) : Fresh (running i) := ⟨rfl, rfl⟩

/-- Addresses on both sides of both ends of the status sub-range. -/
theorem witness_bus_forms : (0x2F#6).toNat < 0x30 ∧ 0x3D < (0x3E#6).toNat ∧ 0x30 ≤ (0x30#6).toNat ∧
    (0x3D#6).toNat ≤ 0x3D ∧ 0 < 7 ∧ 6 < 7 := by decide

/-- A block step that goes on, and one that completes. -/
theorem witness_effects :
    (∃ t, exec .reset (running .reset) = .next t ∧ t.engine.busy = true) ∧
    (∃ t, exec .nop (running .nop) = .next t ∧ t.engine.busy = false) := ⟨⟨_, rfl, rfl⟩, ⟨_, rfl, rfl⟩⟩

theorem witness_one_transaction : ∃ t, step (running .reset) = .next t ∧ t.env.busLog = [[]] := ⟨_, rfl, rfl⟩

theorem witness_refine : Instr.diag ≠ .enterRx ∧ BlockAlone (running .diag) ∧ Fresh (running .diag) ∧
    (running .diag).engine.opc = opcodeOf .diag := ⟨by decide, ⟨rfl, rfl⟩, ⟨rfl, rfl⟩, rfl⟩

/-- The largest burst. -/
theorem witness_rburst : Fresh (running .rburst (a := ops 0x3F 256)) ∧
    (running .rburst (a := ops 0x3F 256)).engine.args.a1.toNat ≤ 256 := ⟨⟨rfl, rfl⟩, by decide⟩

/-- A range whose first byte has no value cannot be read. -/
theorem readBytes_none (s : State) (a : HostAddr) (h : s.readByte a = none) (n : Nat) : s.readBytes a (n + 1) = none := by
  induction n with
  | zero => simp [State.readBytes, h]
  | succ n ih => rw [State.readBytes, ih]

/-- A written source of `WBURST`, and an unwritten one of the most bytes. -/
theorem witness_wburst :
    Fresh (running .wburst (holding 0x4000 [0x12, 0x34]) (a := ops 0x3F 2)) ∧
    (running .wburst (holding 0x4000 [0x12, 0x34]) (a := ops 0x3F 2)).readBytes 0x4000 2 = some [0x12, 0x34] ∧
    (running .wburst (a := ops 0x3F 256)).engine.args.a1.toNat ≤ 256 ∧
    (running .wburst (a := ops 0x3F 256)).readBytes 0x4000 256 = none :=
  ⟨⟨rfl, rfl⟩, by decide, by decide, readBytes_none _ _ (by decide) 255⟩

theorem witness_strobe : (running .strobe (a := ops 0)).engine.args.a0.toNat ≤ 6 ∧
    (running .strobe (a := ops 6)).engine.args.a0.toNat ≤ 6 := by decide

/-- Answers whose bytes do not matter. -/
theorem allBytes_replicate (n : Nat) (bs : List Byte) : AllBytes (List.replicate n (.bytes bs)) :=
  fun _ h => ⟨bs, List.eq_of_mem_replicate h⟩

/-- `RESET` at its first, third and fourth block step. -/
theorem witness_reset (n : Nat) : At (running .reset start (List.replicate n (.bytes [0]))) (List.replicate n (.bytes [0])) ∧
    AllBytes (List.replicate n (.bytes [0])) ∧ (resetTxns chip)[0]? = some [] ∧ (resetTxns chip)[2]? = some [0x3A] ∧
    (resetTxns chip)[3]? = some [0x3B] := ⟨⟨rfl, rfl⟩, allBytes_replicate n [0], rfl, rfl, rfl⟩

/-- One failed identity attempt and the reset after it. -/
def failedOnce : List Reply := [.bytes [0, 0xFF], .bytes [0, 0xFF], .bytes [], .bytes [0], .bytes [0], .bytes [0]]

theorem failedOnce_failed : FailedAttempt failedOnce := ⟨0, 0xFF, 0, 0xFF, [], [0], [0], [0], by decide, rfl⟩

/-- No, one and two failed attempts. -/
theorem witness_failed_attempts : FailedAttempts 0 [] ∧ FailedAttempts 1 (failedOnce ++ []) ∧
    FailedAttempts 2 (failedOnce ++ (failedOnce ++ [])) :=
  ⟨rfl, ⟨_, _, failedOnce_failed, rfl, rfl⟩, ⟨_, _, failedOnce_failed, ⟨_, _, failedOnce_failed, rfl, rfl⟩, rfl⟩⟩

/-- A command that has learned nothing or anything at all: for every clause about a block step, `PROBE`'s and `INIT`'s first
identity read and their reset between attempts among them. -/
theorem witness_at (i : Instr) (rs : List Reply) : At (running i start rs) rs := ⟨rfl, rfl⟩

/-- The other hypotheses of `PROBE`'s and `INIT`'s clauses: a bad and a good pair, the first and the last transaction of
the reset between attempts and of the configuration. -/
theorem witness_probe : badIdentity 0x00 0x00 = true ∧ badIdentity 0xFF 0xFF = true ∧ badIdentity 0x00 0x14 = false ∧
    (resetTxns chip)[0]? = some [] ∧ (resetTxns chip)[3]? = some [0x3B] ∧
    (configureTxns chip 0x10AF50)[0]? = some [1, 2] ∧ (configureTxns chip 0x10AF50)[4]? = some [0x3E, 1] := by decide

/-- `DIAG` before its first and its last read: the answers are pairs. -/
theorem witness_diag : (List.replicate 13 ((0 : Byte), (7 : Byte))).length = 13 ∧
    ((List.replicate 13 ((0 : Byte), (7 : Byte))).map fun e => Reply.bytes [e.1, e.2]).length = 13 := by decide

/-- The largest word that `FREQ_HZ` takes, and a frequency with a legal word. -/
theorem witness_freq : (running .freqHz (a := ops 0xA530E8)).engine.args.a0.toNat ≤ 0xA530E8 ∧
    433805000 < 2 ^ 32 ∧ freqWord 433805000 ≤ 0xA530E8 := by decide

/-- A range with every byte written, one with an unwritten byte, and the empty range at a space's end
(`CRC16`, `SENTCHK`, `EXTRACT`). -/
theorem witness_source : readableRange 0x4000 2 = true ∧
    (holding 0x4000 [0x12, 0xFF]).readBytes 0x4000 2 = some [0x12, 0xFF] ∧ (holding 0x4000 [0x12]).readBytes 0x4000 2 = none ∧
    readableRange 0x4100 0 = true ∧ start.readBytes 0x4100 0 = some [] := by decide

/-- `SENTCHK`'s two outcomes. -/
theorem witness_sentchk : (0xFF#8) ∉ [0x12#8] ∧ [0x12#8, 0xFF#8][1]? = some 0xFF#8 ∧
    ∀ j, j < 1 → [0x12#8, 0xFF#8][j]? ≠ some 0xFF#8 := by decide

/-- `ENCODE` of one byte, and of the largest source whose output fits RAWB. -/
theorem witness_encode : readableRange 0x4000 1 = true ∧ writableRange 0x4001 ((12 * 1 + 4) / 8 + 1) = true ∧
    readableRange 0x2000 2730 = true ∧ writableRange 0x2000 ((12 * 2730 + 4) / 8 + 1) = true := by decide

/-- `DECODE` of no byte and of all of RAWB. -/
theorem witness_decode : readableRange 0x2000 0 = true ∧ writableRange 0x3000 1 = true ∧
    readableRange 0x2000 4096 = true ∧ writableRange 0x3000 1024 = true := by decide

/-- `EXTRACT` of a reply with every field, with liters only, and with none. -/
theorem witness_extract : readableRange 0x3000 49 = true ∧
    ((holding 0x3000 reply).readBytes 0x3000 49).isSome = true ∧ readableRange 0x3000 22 = true ∧
    ((holding 0x3000 reply).readBytes 0x3000 22).isSome = true ∧ readableRange 0x3400 0 = true ∧
    start.readBytes 0x3000 22 = none := by decide

/-- The shortest payload, with exactly the capacity its bound asks for. -/
theorem witness_roundtrip : 1 ≤ [0xA5#8].length ∧ decodeBound (over4 (encodeFrame [0xA5#8])).length ≤ 3 := by decide

/-- The shortest captured stream, and what the decoder's terms say of it: five clear samples and three set ones are one
clear bit and one set bit, the beginning of one byte (44_decoder.md R114, R118, R120). -/
theorem witness_runs : [0x07#8] ≠ [] ∧ (List.range 8).map (sampleAt [0x07]) =
      [false, false, false, false, false, true, true, true] ∧
    RunsOf ((List.range 8).map (sampleAt [0x07])) [(5, false), (3, true)] ∧
    quantised 0 [(5, false), (3, true)] = [false, true] ∧ ByteStarts [false, true] [0] false := by
  refine ⟨by decide, by decide, ⟨by decide, by decide, ?_⟩, by decide, rfl, ?_, ?_⟩
  · rintro (_ | _ | i) a b ha hb <;> simp_all
    subst ha hb; decide
  · rintro (_ | j) f g hf hg <;> simp_all
  · rintro f hf
    simp_all
    intro i hi; rw [List.getElem?_eq_none (by simp; omega)]; simp

/-- Every tick state with nothing else pending. -/
theorem witness_ticking (st : SessState) : Ticking st (running .tick (inSession st)) := ⟨⟨rfl, rfl⟩, ⟨rfl, rfl⟩, rfl, rfl⟩

/-- A session that has sent `sent` of the request's 39 bytes. -/
def streaming (sent : BitVec 16) : State :=
  running .tick (let s := inSession .streamRequest (holding 0x1000 (List.replicate 39 0))
    { s with sess := { s.sess with reqLen := 39, sent := sent } })

/-- Nothing sent yet, and all sent. -/
theorem witness_stream_request (sent : BitVec 16) (h : sent = 0 ∨ sent = 39) :
    Ticking .streamRequest (streaming sent) ∧ (streaming sent).sess.reqLen = 39 ∧ (streaming sent).sess.sent.toNat ≤ 39 ∧
    ∀ i, i < 39 → ((streaming sent).mem.read (0x1000 + i)).isSome = true := by
  refine ⟨⟨⟨rfl, rfl⟩, ⟨rfl, rfl⟩, rfl, rfl⟩, rfl, ?_, ?_⟩
  · rcases h with rfl | rfl <;> decide
  · have hm : (streaming sent).mem = (streaming 0).mem := rfl
    rw [hm]
    decide

/-- A session that has received `recv` bytes of a target of 8. -/
def fetching (recv : BitVec 16) (bs : List Byte) : State :=
  running .tick (let s := inSession .dataFetch2 (holding 0x2000 bs (start [0, 1]))
    { s with sess := { s.sess with target := 8, recv := recv } })

/-- Nothing received yet, and all but one byte. -/
theorem witness_fetch_reply :
    (Ticking .dataFetch2 (fetching 0 []) ∧ (fetching 0 []).sess.target.toNat ≤ 4096 ∧
      (fetching 0 []).sess.recv.toNat ≤ (fetching 0 []).sess.target.toNat) ∧
    (Ticking .dataFetch2 (fetching 7 (List.replicate 7 0)) ∧
      (fetching 7 (List.replicate 7 0)).sess.recv.toNat ≤ (fetching 7 (List.replicate 7 0)).sess.target.toNat ∧
      ∀ i, i < (fetching 7 (List.replicate 7 0)).sess.recv.toNat →
        ((fetching 7 (List.replicate 7 0)).mem.read (0x2000 + i)).isSome = true) :=
  ⟨⟨⟨⟨rfl, rfl⟩, ⟨rfl, rfl⟩, rfl, rfl⟩, by decide, by decide⟩,
    ⟨⟨⟨rfl, rfl⟩, ⟨rfl, rfl⟩, rfl, rfl⟩, by decide, by decide⟩⟩

/-- A session that decodes 8 received bytes. -/
def decoding : State :=
  running .tick (let s := inSession .decode (holding 0x2000 (List.replicate 8 0xFF))
    { s with sess := { s.sess with target := 8, recv := 8 } })

theorem witness_tick_decode : Fresh decoding ∧ decoding.sess.state = .decode ∧ decoding.sess.recv.toNat ≤ 4096 ∧
    decoding.readBytes 0x2000 8 = some (List.replicate 8 0xFF) := ⟨⟨rfl, rfl⟩, rfl, by decide, by decide⟩

/-- The invariant holds in a session that fetches its reply, whose target fits RAWB. -/
theorem witness_invariant : Inv (fetching 7 (List.replicate 7 0)) ∧
    (fetching 7 (List.replicate 7 0)).sess.target.toNat ≤ 4096 :=
  ⟨⟨by decide, by decide, fun h => absurd h (by decide), fun _ => ⟨.tick, rfl, fun _ => rfl⟩,
    ⟨fun h => absurd h (by decide), fun h => absurd h (by decide), fun _ => ⟨by decide, by decide⟩⟩,
    fun h => absurd h (by decide)⟩, by decide⟩

/-- A step leads on from there. -/
theorem witness_invariant_step :
    after (step (fetching 7 (List.replicate 7 0))) (fun t => t.sess.state) = some .dataFetch2 := by decide

/-- A step that changes the session state, the Publish tick, from a state with the invariant. -/
theorem witness_session_moves : Inv (running .tick (inSession .publish)) ∧
    after (step (running .tick (inSession .publish))) (fun t => t.sess.state) = some .idle :=
  ⟨⟨by decide, by decide, fun h => absurd h (by decide), fun _ => ⟨.tick, rfl, fun _ => rfl⟩,
    ⟨fun h => absurd h (by decide), fun h => absurd h (by decide), fun h => absurd h (by decide)⟩,
    fun h => absurd h (by decide)⟩, by decide⟩

/-- A step of `EachRegisterHasItsWriters` in which something is written: the completion of `RSSI_DBM`. -/
theorem witness_writers : (∃ t, step (running .rssiDbm) = .next t ∧ t.csr.result0 ≠ (running .rssiDbm).csr.result0) ∧
    ∀ level rest, (running .rssiDbm).env.host ≠ .rstN level :: rest := ⟨⟨_, rfl, by decide⟩, fun _ _ h => nomatch h⟩

/-- The register map of 10_state.md R18 is the one the host port uses. -/
theorem test_register_map : csrMap.length = 33 ∧ ∀ e ∈ csrMap, csrAt e.1 = some e.2 := by decide

/-- The clauses of the host reads, the last byte of a space among them. -/
theorem witness_host_reads :
    (hosted [rd32 0x090]).env.host = rd32 0x090 :: [] ∧ ((0x090#16).toNat, Csr.learnWin) ∈ csrMap ∧
    Csr.learnWin ≠ .now ∧ readableRange 0x701B 1 = true ∧ start.readByte 0x701B = some 19 ∧
    readableRange 0x40FF 1 = true ∧ start.readByte 0x40FF = none := by decide

theorem witness_mem_read : writableRange 0x501F 1 = true ∧ 255 < 256 ∧ 27 < 28 ∧
    start.readBytes 0x61FE 2 = some [0x78, 0x0F] := by decide

/-- The clauses of the host writes: a register, a buffer byte outside a session, XB in a session. -/
theorem witness_host_writes : (hosted [wr32 0x014 4]).port.rstN = true ∧ ((0x014#16).toNat, Csr.status) ∈ csrMap ∧
    Csr.status ≠ .cmd ∧ writableRange 0x103F 1 = true ∧ start.engine.busy = false ∧ start.sess.state = .idle ∧
    (0x40FF#16).toNat / 4096 = 4 ∧ writableRange 0x40FF 1 = true := by decide

/-- A forbidden and an allowed access. -/
theorem witness_host_faults :
    (∃ t, step (hosted [rd8 0x7000]) = .next t ∧ t.port.herr = false) ∧
    (∃ t, step (hosted [rd8 0x701C]) = .next t ∧ t.port.herr = true) := ⟨⟨_, rfl, rfl⟩, ⟨_, rfl, rfl⟩⟩

/-- The clauses about reset: its fall, an access while it is low, and no access. -/
theorem witness_reset_line : (hosted [.rstN false]).env.host = .rstN false :: [] ∧
    ((hosted [rd32 0]).setRstN false).port.rstN = false ∧ (start.setRstN false).env.host = [] := ⟨rfl, rfl, rfl⟩

end Sys2Proof.Tests
end

/-! PROOFS. A step makes at most one bus transaction (00_scope.md R6, 40_bus_access.md R72).

Inside a block step `MidStep` already bounds the transactions, up to the command's last effect. What is left is that no
last effect touches the environment, command by command, and that neither do the host's events. -/

namespace Sys2Proof.Machine

/-! ## The effects a program can end with -/

/-- Every effect the program can end with, whatever it is answered, satisfies `P`. -/
def Prog.AllEnds (P : (State → State) → Prop) (p : Prog) : Prop := ∀ fx, p.Ends fx → P fx

namespace Prog.AllEnds

section Combinators
variable {P : (State → State) → Prop}

/-! One rule for each constructor. -/

theorem done {fx : State → State} (h : P fx) : (Prog.done fx).AllEnds P := by
  rintro _ ⟨⟩; exact h

theorem stop (f : Fault) : (Prog.stop f).AllEnds P := by rintro _ ⟨⟩

theorem again (n : Nat) : (Prog.again n).AllEnds P := by rintro _ ⟨⟩

theorem bus {out : List Byte} {k : List Byte → Prog} (h : ∀ ins, (k ins).AllEnds P) :
    (Prog.bus out k).AllEnds P := by
  rintro fx (_ | ⟨_, _, _, ins, hk⟩); exact h ins fx hk

theorem clock {k : Word → Prog} (h : ∀ now, (k now).AllEnds P) : (Prog.clock k).AllEnds P := by
  rintro fx (_ | _ | ⟨_, _, now, hk⟩); exact h now fx hk

theorem level {k : Bool → Prog} (h : ∀ l, (k l).AllEnds P) : (Prog.level k).AllEnds P := by
  rintro fx (_ | _ | _ | ⟨_, _, l, hk⟩); exact h l fx hk

theorem csr {f : Csrs → Word} {k : Word → Prog} (h : ∀ w, (k w).AllEnds P) : (Prog.csr f k).AllEnds P := by
  rintro fx (_ | _ | _ | _ | ⟨_, _, _, w, hk⟩); exact h w fx hk

theorem ite {c : Prop} [Decidable c] {p q : Prog} (hp : p.AllEnds P) (hq : q.AllEnds P) :
    (if c then p else q).AllEnds P := by
  split
  · exact hp
  · exact hq

/-! One rule for each procedure that programs are written with. -/

theorem readRange {s : State} {a : HostAddr} {n : Nat} {k : List Byte → Prog} (h : ∀ bs, (k bs).AllEnds P) :
    (readRange s a n k).AllEnds P := by
  unfold Machine.readRange
  split
  · split
    · exact h _
    · exact stop _
  · exact stop _

theorem guardWrite {a : HostAddr} {n : Nat} {k : Prog} (h : k.AllEnds P) : (guardWrite a n k).AllEnds P :=
  ite h (stop _)

theorem writeReg {p : Params} {a : ChipAddr} {v : Byte} {k : Prog} (h : k.AllEnds P) :
    (writeReg p a v k).AllEnds P := bus fun _ => h

theorem secondByte {ins : List Byte} {k : Byte → Prog} (h : ∀ v, (k v).AllEnds P) :
    (secondByte ins k).AllEnds P := by
  unfold Machine.secondByte
  split
  · exact h _
  · exact stop _

theorem readReg {p : Params} {a : ChipAddr} {k : Byte → Prog} (h : ∀ v, (k v).AllEnds P) :
    (readReg p a k).AllEnds P := bus fun _ => secondByte h

theorem readBurst {p : Params} {a : ChipAddr} {n : Nat} {k : List Byte → Prog} (h : ∀ bs, (k bs).AllEnds P) :
    (readBurst p a n k).AllEnds P := bus fun _ => ite (h _) (stop _)

theorem writeBurst {p : Params} {a : ChipAddr} {data : List Byte} {k : Prog} (h : k.AllEnds P) :
    (writeBurst p a data k).AllEnds P := bus fun _ => h

theorem strobe {p : Params} {c : Strobe} {k : Prog} (h : k.AllEnds P) : (strobe p c k).AllEnds P := bus fun _ => h

theorem applySeq {p : Params} {l : List (ChipAddr × Byte)} {k : Prog} (h : k.AllEnds P) :
    (applySeq p l k).AllEnds P := by
  induction l with
  | nil => exact h
  | cons _ _ ih => exact writeReg ih

theorem resetSeq {p : Params} {k : Prog} (h : k.AllEnds P) : (resetSeq p k).AllEnds P :=
  bus fun _ => strobe <| strobe <| strobe h

theorem probeFrom {p : Params} {left att : Nat} {k : ProbeResult → Prog} (h : ∀ r, (k r).AllEnds P) :
    (probeFrom p left att k).AllEnds P := by
  induction left generalizing att with
  | zero => exact readReg fun _ => readReg fun _ => h _
  | succ _ ih => exact readReg fun _ => readReg fun _ => ite (resetSeq ih) (h _)

theorem probeSeq {p : Params} {k : ProbeResult → Prog} (h : ∀ r, (k r).AllEnds P) : (probeSeq p k).AllEnds P :=
  probeFrom h

theorem configureSeq {p : Params} {hz : Word} {k : BitVec 24 → Prog} (h : ∀ w, (k w).AllEnds P) :
    (configureSeq p hz k).AllEnds P :=
  applySeq <| writeReg <| writeReg <| writeReg <| writeReg <| h _

theorem readRegs {p : Params} {n : Nat} {a : ChipAddr} {got : List Byte} {k : List Byte → Prog}
    (h : ∀ bs, (k bs).AllEnds P) : (readRegs p n a got k).AllEnds P := by
  induction n generalizing a got with
  | zero => exact h _
  | succ _ ih => exact readReg fun _ => ih

end Combinators

end Prog.AllEnds

/-! ## What no effect touches -/

/-- `t` is `s` but for the CSRs, the session and the buffers: parameters, engine, host port and environment stay. -/
def BlockUpdate (s t : State) : Prop := t = { s with csr := t.csr, sess := t.sess, mem := t.mem }

theorem BlockUpdate.refl (s : State) : BlockUpdate s s := rfl

theorem BlockUpdate.trans {s t u : State} (hst : BlockUpdate s t) (htu : BlockUpdate t u) : BlockUpdate s u := by
  unfold BlockUpdate
  calc u = { t with csr := u.csr, sess := u.sess, mem := u.mem } := htu
    _ = { s with csr := u.csr, sess := u.sess, mem := u.mem } := by rw [hst]

theorem BlockUpdate.env {s t : State} (h : BlockUpdate s t) : t.env = s.env := by rw [h]

theorem BlockUpdate.ite {s t u : State} {c : Prop} [Decidable c] (ht : BlockUpdate s t) (hu : BlockUpdate s u) :
    BlockUpdate s (if c then t else u) := by
  split
  · exact ht
  · exact hu

/-! Rules for the operations whose values can be long computations, so that no proof evaluates the value. -/

theorem BlockUpdate.setResult0 {s t : State} {w : Word} (h : BlockUpdate s t) : BlockUpdate s (t.setResult0 w) :=
  h.trans rfl

theorem BlockUpdate.setResult1 {s t : State} {w : Word} (h : BlockUpdate s t) : BlockUpdate s (t.setResult1 w) :=
  h.trans rfl

theorem BlockUpdate.writeBytes {s t : State} {a : HostAddr} {bs : List Byte} (h : BlockUpdate s t) :
    BlockUpdate s (t.writeBytes a bs) := h.trans rfl

theorem BlockUpdate.mapReading {s t : State} {f : Reading → Reading} (h : BlockUpdate s t) :
    BlockUpdate s (t.mapReading f) := h.trans rfl

theorem BlockUpdate.configured {s t : State} {w : BitVec 24} (h : BlockUpdate s t) : BlockUpdate s (configured w t) :=
  h.trans rfl

theorem writeRequest_blockUpdate (payload : List Byte) (s : State) : BlockUpdate s (writeRequest payload s) :=
  .writeBytes <| .writeBytes <| .refl s

theorem sentchkResults_blockUpdate (bs : List Byte) (s : State) : BlockUpdate s (sentchkResults bs s) := by
  unfold sentchkResults
  split <;> rfl

theorem probeFlags_blockUpdate (r : ProbeResult) (s : State) : BlockUpdate s (probeFlags r s) :=
  BlockUpdate.trans (t := if 1 < r.attempts then s.setConf false else s) (.ite rfl rfl) rfl

/-- Every last effect of the program is a `BlockUpdate`. -/
abbrev Prog.Framed (p : Prog) : Prop := p.AllEnds fun fx => ∀ u, BlockUpdate u (fx u)

/-! ## The session's actions -/

theorem tickStay_framed {fx : State → State} (h : ∀ u, BlockUpdate u (fx u)) : (tickStay fx).Framed :=
  .done fun u => (h u).trans rfl

theorem tickGoto_framed {next : SessState} {now : Word} {fx : State → State} (h : ∀ u, BlockUpdate u (fx u)) :
    (tickGoto next now fx).Framed :=
  .done fun u => (h u).trans rfl

theorem tickFail_framed {code : FailCode} {now : Word} {fx : State → State} (h : ∀ u, BlockUpdate u (fx u)) :
    (tickFail code now fx).Framed :=
  .done fun u => (h u).trans rfl

theorem actStartPreamble_framed (s : State) (now : Word) : (actStartPreamble s now).Framed :=
  .strobe <| .applySeq <| .writeBurst <| .strobe <| tickGoto_framed fun _ => rfl

theorem paceTopUp_framed (s : State) (now : Word) : (paceTopUp s now).Framed :=
  have stepEnd : (paceStepEnd s now).Framed := .ite (tickGoto_framed fun _ => rfl) (tickStay_framed fun _ => rfl)
  .readReg fun _ => .ite (.writeBurst stepEnd) stepEnd

theorem actStreamPreamble_framed (s : State) (now : Word) : (actStreamPreamble s now).Framed :=
  .ite (tickStay_framed .refl) <|
    .readReg fun _ => .ite (paceTopUp_framed s now) (.strobe (paceTopUp_framed s now))

theorem actGuardBeforeReq_framed (s : State) (now : Word) : (actGuardBeforeReq s now).Framed :=
  .ite (tickGoto_framed .refl) (tickStay_framed .refl)

theorem actStartRequest_framed (s : State) (now : Word) : (actStartRequest s now).Framed :=
  .applySeq <| tickGoto_framed fun _ => rfl

theorem streamRequestEnd_framed (s : State) (now : Word) (sent : BitVec 16) : (streamRequestEnd s now sent).Framed :=
  .ite (tickGoto_framed fun _ => rfl) (.ite (tickFail_framed fun _ => rfl) (tickStay_framed fun _ => rfl))

theorem actStreamRequest_framed (s : State) (now : Word) : (actStreamRequest s now).Framed :=
  .readReg fun _ => .ite (.strobe <| .strobe <| streamRequestEnd_framed s now _) <|
    .ite (.readRange fun _ => .writeBurst <| streamRequestEnd_framed s now _) (streamRequestEnd_framed s now _)

theorem actWaitTxFinish_framed (s : State) (now : Word) : (actWaitTxFinish s now).Framed :=
  .readReg fun _ => .ite (.applySeq <| tickGoto_framed .refl) <|
    .ite (.applySeq <| tickFail_framed .refl) (tickStay_framed .refl)

theorem actDataSetupStage1_framed (s : State) (now : Word) : (actDataSetupStage1 s now).Framed :=
  .applySeq <| .strobe <| .strobe <| tickGoto_framed .refl

theorem actDataWaitSync1_framed (s : State) (now : Word) : (actDataWaitSync1 s now).Framed :=
  .level fun _ => .ite (tickGoto_framed .refl) (.ite (tickGoto_framed .refl) (tickStay_framed .refl))

theorem actDataFetch1_framed (s : State) (now : Word) : (actDataFetch1 s now).Framed :=
  .readReg fun _ => .ite (.readBurst fun _ => tickGoto_framed .refl) (tickGoto_framed .refl)

theorem actDataSetupStage2_framed (s : State) (now : Word) : (actDataSetupStage2 s now).Framed :=
  .applySeq <| .strobe <| .strobe <| tickGoto_framed fun _ => rfl

theorem actDataWaitSync2_framed (s : State) (now : Word) : (actDataWaitSync2 s now).Framed :=
  .level fun _ => .ite (.readReg fun _ => .readReg fun _ => tickGoto_framed fun _ => rfl) <|
    .ite (tickFail_framed .refl) (tickStay_framed .refl)

theorem dataFetch2End_framed (s : State) (now : Word) (got : List Byte) : (dataFetch2End s now got).Framed :=
  .ite (.applySeq <| .readRange fun _ =>
      .ite (tickGoto_framed fun _ => .ite rfl rfl) (tickFail_framed fun _ => .ite rfl rfl)) <|
    .ite (.applySeq <| tickFail_framed fun _ => .ite rfl rfl) (tickStay_framed fun _ => .ite rfl rfl)

theorem actDataFetch2_framed (s : State) (now : Word) : (actDataFetch2 s now).Framed :=
  .readReg fun _ => .ite (.readBurst fun bs => .ite (dataFetch2End_framed s now bs) (.stop _))
    (dataFetch2End_framed s now [])

theorem actDecode_framed (s : State) (now : Word) : (actDecode s now).Framed :=
  .readRange fun _ => .ite (tickGoto_framed fun _ => rfl) <|
    .ite (tickFail_framed fun _ => rfl) (tickFail_framed fun _ => rfl)

theorem actPublish_framed (s : State) (now : Word) : (actPublish s now).Framed := tickGoto_framed fun _ => rfl

theorem actFail_framed (s : State) (now : Word) : (actFail s now).Framed :=
  .strobe <| .strobe <| .strobe <| .applySeq <| tickGoto_framed fun _ => rfl

theorem sessionAction_framed (s : State) (now : Word) : (sessionAction s now).Framed := by
  unfold sessionAction
  cases s.sess.state
  case idle => exact tickStay_framed .refl
  case startPreamble => exact actStartPreamble_framed s now
  case streamPreamble => exact actStreamPreamble_framed s now
  case guardBeforeReq => exact actGuardBeforeReq_framed s now
  case startRequest => exact actStartRequest_framed s now
  case streamRequest => exact actStreamRequest_framed s now
  case waitTxFinish => exact actWaitTxFinish_framed s now
  case dataSetupStage1 => exact actDataSetupStage1_framed s now
  case dataWaitSync1 => exact actDataWaitSync1_framed s now
  case dataFetch1 => exact actDataFetch1_framed s now
  case dataSetupStage2 => exact actDataSetupStage2_framed s now
  case dataWaitSync2 => exact actDataWaitSync2_framed s now
  case dataFetch2 => exact actDataFetch2_framed s now
  case decode => exact actDecode_framed s now
  case publish => exact actPublish_framed s now
  case fail => exact actFail_framed s now

/-! ## The commands -/

theorem strobeProg_framed (s : State) : (strobeProg s).Framed := by
  unfold strobeProg
  split
  · exact .strobe <| .done fun _ => .ite rfl rfl
  · exact .stop _

theorem probeProg_framed (s : State) : (probeProg s).Framed :=
  .probeSeq fun r => .done fun u => .setResult1 <| .setResult0 <| probeFlags_blockUpdate r u

theorem configureProg_framed (s : State) : (configureProg s).Framed :=
  .configureSeq fun _ => .done fun u => .setResult0 <| .configured <| .refl u

theorem enterRxProg_framed (s : State) : (enterRxProg s).Framed :=
  .strobe <| .strobe <| .readReg fun _ =>
    .ite (.done fun u => .setResult1 <| .setResult0 <| .refl u) <|
      .clock fun _ => .ite (.done fun u => .setResult1 <| .setResult0 <| .refl u) (.again _)

theorem initProg_framed (s : State) : (initProg s).Framed :=
  .probeSeq fun r => .ite
    (.csr fun _ => .configureSeq fun _ => .done fun u =>
      .setResult1 <| .setResult0 <| .configured <| probeFlags_blockUpdate r u)
    (.done fun u => .setResult1 <| .setResult0 <| probeFlags_blockUpdate r u)

theorem tickProg_framed (s : State) : (tickProg s).Framed :=
  .ite (.done fun u => .setResult1 <| .setResult0 <| .refl u) (.clock fun now => sessionAction_framed s now)

/-- Every command ends with an update of CSRs, session and buffers alone. -/
theorem progOf_framed (i : Instr) (s : State) : (progOf i s).Framed := by
  cases i
  case nop => exact .done .refl
  case wreg => exact .writeReg <| .done .refl
  case rreg => exact .readReg fun _ => .done fun u => .setResult0 <| .refl u
  case rburst => exact .guardWrite <| .readBurst fun _ => .done fun u => .setResult0 <| .writeBytes <| .refl u
  case wburst => exact .readRange fun _ => .writeBurst <| .done fun u => .setResult0 <| .refl u
  case strobe => exact strobeProg_framed s
  case reset => exact .resetSeq <| .done fun _ => rfl
  case probe => exact probeProg_framed s
  case configure => exact configureProg_framed s
  case enterRx => exact enterRxProg_framed s
  case init => exact initProg_framed s
  case diag => exact .readRegs fun _ => .done fun u => .setResult0 <| .writeBytes <| .refl u
  case rssiDbm => exact .done fun u => .setResult0 <| .refl u
  case freqWord => exact .done fun u => .setResult0 <| .refl u
  case freqHz => exact .done fun u => .setResult1 <| .setResult0 <| .refl u
  case crc16 => exact .readRange fun _ => .done fun u => .setResult1 <| .setResult0 <| .refl u
  case buildReq => exact .done fun u => .setResult1 <| .setResult0 <| writeRequest_blockUpdate _ u
  case encode => exact .guardWrite <| .readRange fun _ => .done fun u => .setResult0 <| .writeBytes <| .refl u
  case decode =>
    exact .guardWrite <| .readRange fun _ => .done fun u => .setResult1 <| .setResult0 <| .writeBytes <| .refl u
  case sentchk => exact .readRange fun bs => .done (sentchkResults_blockUpdate bs)
  case extract => exact .readRange fun _ => .done fun u => .setResult0 <| .mapReading <| .refl u
  case startRead => exact .clock fun _ => .done fun _ => rfl
  case tick => exact tickProg_framed s

/-! ## The transactions of a step -/

/-- At most one bus transaction was made between `s` and `t`. -/
def AtMostOneTxn (s t : State) : Prop :=
  t.env.busLog = s.env.busLog ∨ ∃ out, t.env.busLog = s.env.busLog ++ [out]

theorem MidStep.atMostOneTxn {b : Bool} {s t : State} (h : MidStep b s t) : AtMostOneTxn s t :=
  h.log.imp_right And.right

theorem submit_busLog (s : State) (i : Instr) (c : Option ErrCode) : (s.submit i c).env.busLog = s.env.busLog := by
  rcases s.submit_cases i c with ⟨code, h⟩ | h
  · rw [h, State.refuse_env]
  · rw [h, State.accept_env, Env.readClock_log]

/-- `exec` makes at most one transaction: none when it submits, and in a block step only what `MidStep` allows, since
the last effect makes none. -/
theorem exec_atMostOneTxn {i : Instr} {s t : State} (h : exec i s = .next t) : AtMostOneTxn s t := by
  rw [exec_eq] at h
  cases hb : s.engine.busy with
  | false =>
    rw [runCommand_idle hb, Host.Outcome.next.injEq] at h
    subst h
    exact .inl (submit_busLog s i _)
  | true =>
    rcases runCommand_busy hb h with ⟨fx, u, hends, hmid, rfl⟩ | hmid
    · have hfx : (fx u).complete.env = u.env := (progOf_framed i s fx hends u).env
      rw [AtMostOneTxn, hfx]
      exact hmid.atMostOneTxn
    · exact hmid.atMostOneTxn

/-! ## The host's events make no transaction -/

theorem hostRead_busLog {a : HostAddr} {size : HSize} {s t : State} (h : hostRead a size s = .next t) :
    t.env.busLog = s.env.busLog := by
  unfold hostRead at h
  split at h
  · split at h <;> cases h
    · rw [State.respond_env]
      split
      · exact s.env.readClock_log
      · rfl
    · rfl
  · split at h
    · split at h <;> cases h
      rfl
    · cases h; rfl

theorem hostWrite_busLog {a : HostAddr} {size : HSize} {w : Word} {s t : State} (h : hostWrite a size w s = .next t) :
    t.env.busLog = s.env.busLog := by
  unfold hostWrite at h
  split at h
  · split at h <;> cases h <;> rfl
  · split at h <;> cases h <;> rfl

theorem hostAccess_busLog {x : HostAccess} {s t : State} (h : hostAccess x s = .next t) :
    t.env.busLog = s.env.busLog := by
  unfold hostAccess at h
  split at h
  · cases h; rfl
  · split at h
    · exact hostWrite_busLog h
    · exact hostRead_busLog h

theorem onCmdWrite_busLog (w : Word) (s : State) : (onCmdWrite w s).1.env.busLog = s.env.busLog := by
  simp only [onCmdWrite]
  split
  · rfl
  · split <;> rfl

theorem setRstN_busLog (level : Bool) (s : State) : (s.setRstN level).env.busLog = s.env.busLog := by
  cases level <;> rfl

theorem blockTurn_busLog {s : State} {r : State × Option Instr} (h : blockTurn s = .next r) :
    r.1.env.busLog = s.env.busLog := by
  unfold blockTurn at h
  split at h
  · split at h <;> cases h
    rfl
  · cases h; rfl

theorem turn_busLog {s : State} {r : State × Option Instr} (h : turn s = .next r) :
    r.1.env.busLog = s.env.busLog := by
  cases hhost : s.env.host with
  | nil =>
    simp only [turn, hhost] at h
    exact blockTurn_busLog h
  | cons e rest =>
    cases e <;> simp only [turn, hhost] at h
    case access x =>
      split at h
      · cases h; exact onCmdWrite_busLog _ _
      · split at h
        next hacc => cases h; exact hostAccess_busLog (s := s.popHost rest) hacc
        next => cases h
        next => cases h
    case pause => exact blockTurn_busLog (s := s.popHost rest) h
    case wait =>
      split at h
      · exact blockTurn_busLog h
      · cases h; rfl
    case tickUntil => cases h; rfl
    case untilState =>
      cases h
      dsimp only
      split <;> rfl
    case rstN level => cases h; exact setRstN_busLog level _

/-- Settles O7: whose turn it is decides without a transaction, and the command that `exec` then runs makes at most
one. -/
theorem atMostOneTransactionPerStep : Obligations.AtMostOneTransactionPerStep := by
  intro s t h
  unfold step at h
  split at h
  next hturn =>
    rw [← turn_busLog hturn]
    exact exec_atMostOneTxn h
  next hturn =>
    cases h
    exact .inl (turn_busLog hturn)
  next => cases h
  next => cases h

end Sys2Proof.Machine

/-! PROOFS. Who writes which register and which flag (10_state.md R16, R21, R22, R30 to R34).

A step is one of four things, each with its own list of what it can leave in the CSRs and the session: a quiet turn, a
host access, a submission, or the completion of a command. `step_writes` says so once; every row of the statement is read
off it. -/

namespace Sys2Proof.Machine

/-! ## The last effect of each command -/

/-- What the last effect of a command can make of the CSRs and the session. -/
inductive LastEffect : Instr → Csrs → Session → Csrs → Session → Prop where
  /-- Results only: most commands. -/
  | results (i : Instr) (c : Csrs) (x : Session) (v w : Word) :
      LastEffect i c x { c with result0 := v, result1 := w } x
  /-- The transceiver loses its configuration (40_bus_access.md R81, 41_rf_lifecycle.md R90). -/
  | unconfigured (i : Instr) (c : Csrs) (x : Session) (hi : i = .strobe ∨ i = .reset) :
      LastEffect i c x { c with status := { c.status with conf := false } } x
  /-- A probe, with or without a reset in it (R91, R94). -/
  | probed (i : Instr) (c : Csrs) (x : Session) (hi : i = .probe ∨ i = .init) (v w : Word) (chip conf : Bool)
      (hconf : c.status.conf = false → conf = false) :
      LastEffect i c x { c with result0 := v, result1 := w, status := { c.status with chip := chip, conf := conf } } x
  /-- `CONFIGURE` (R92). -/
  | configured (c : Csrs) (x : Session) (v : Word) (f : BitVec 24) :
      LastEffect .configure c x { c with result0 := v, freqWordCur := f, status := { c.status with conf := true } } x
  /-- `INIT` whose probe succeeded (R94). -/
  | initialised (c : Csrs) (x : Session) (v w : Word) (f : BitVec 24) (chip : Bool) :
      LastEffect .init c x { c with result0 := v, result1 := w, freqWordCur := f
                                    status := { c.status with chip := chip, conf := true } } x
  /-- `EXTRACT` (44_decoder.md R128). -/
  | extracted (c : Csrs) (x : Session) (v : Word) (r : Reading) :
      LastEffect .extract c x { c with result0 := v, reading := r } x
  /-- `START_READ` (45_read_sequencer.md R150). -/
  | started (c : Csrs) (x y : Session) (v : Word) :
      LastEffect .startRead c x { c with result0 := v, status := { c.status with sok := false, sfail := false } } y
  /-- A tick, but for the two that leave the session (R129). -/
  | ticked (c : Csrs) (x y : Session) (v w : Word) :
      LastEffect .tick c x { c with result0 := v, result1 := w } y
  /-- The Publish tick (R145). -/
  | published (c : Csrs) (x y : Session) (v w : Word) (r : Reading) (l : LearnWin) (hx : x.state = .publish)
      (hy : y.state = .idle) :
      LastEffect .tick c x { c with result0 := v, result1 := w, reading := r, learn := l
                                    status := { c.status with sok := true, pub := c.status.pub || x.pub } } y
  /-- The Fail tick (R146). -/
  | failed (c : Csrs) (x y : Session) (v w : Word) (hx : x.state = .fail) (hy : y.state = .idle) :
      LastEffect .tick c x { c with result0 := v, result1 := w, status := { c.status with sfail := true } } y

/-- The effect is a last effect of the command whenever the session is as in `s`, where the command's program began. -/
def EndsBy (i : Instr) (s : State) (fx : State → State) : Prop :=
  ∀ u, u.sess = s.sess → LastEffect i u.csr u.sess (fx u).csr (fx u).sess

/-- Every last effect of the program is one of the command's. -/
abbrev Prog.Writes (i : Instr) (s : State) (p : Prog) : Prop := p.AllEnds (EndsBy i s)

/-- Of the CSRs and the session, `t` has at most other results than `s`. -/
structure ResultUpdate (s t : State) : Prop where
  csr : t.csr = { s.csr with result0 := t.csr.result0, result1 := t.csr.result1 }
  sess : t.sess = s.sess

/-! As for `BlockUpdate`, one rule for each operation, so that no proof evaluates a result. -/

theorem ResultUpdate.refl (s : State) : ResultUpdate s s := ⟨rfl, rfl⟩

theorem ResultUpdate.setResult0 {s t : State} {w : Word} (h : ResultUpdate s t) : ResultUpdate s (t.setResult0 w) :=
  ⟨by rw [State.setResult0_csr, h.csr], h.sess⟩

theorem ResultUpdate.setResult1 {s t : State} {w : Word} (h : ResultUpdate s t) : ResultUpdate s (t.setResult1 w) :=
  ⟨by rw [State.setResult1_csr, h.csr], h.sess⟩

theorem ResultUpdate.writeBytes {s t : State} {a : HostAddr} {bs : List Byte} (h : ResultUpdate s t) :
    ResultUpdate s (t.writeBytes a bs) := ⟨h.csr, h.sess⟩

theorem sentchkResults_resultUpdate (bs : List Byte) (s : State) : ResultUpdate s (sentchkResults bs s) := by
  unfold sentchkResults
  split
  · exact .setResult1 <| .setResult0 <| .refl s
  · exact .setResult1 <| .setResult0 <| .refl s

section Rules
variable {i : Instr} {s : State}

/-! The effects that most programs end with. -/

theorem writes_done_results {fx : State → State} (h : ∀ u, ResultUpdate u (fx u)) : (Prog.done fx).Writes i s :=
  .done fun u _ => by
    rw [(h u).csr, (h u).sess]
    exact .results ..

theorem tickStay_writes {fx : State → State} (h : ∀ u, (fx u).csr = u.csr) : (tickStay fx).Writes .tick s :=
  .done fun u _ => h u ▸ LastEffect.ticked ..

theorem tickGoto_writes {next : SessState} {now : Word} {fx : State → State} (h : ∀ u, (fx u).csr = u.csr) :
    (tickGoto next now fx).Writes .tick s :=
  .done fun u _ => h u ▸ LastEffect.ticked ..

theorem tickFail_writes {code : FailCode} {now : Word} {fx : State → State} (h : ∀ u, (fx u).csr = u.csr) :
    (tickFail code now fx).Writes .tick s :=
  .done fun u _ => h u ▸ LastEffect.ticked ..

end Rules

/-! ## The session's actions

Between StartPreamble and Decode a tick writes only the session, the buffers and its results; Publish and Fail also
write registers. -/

theorem paceTopUp_writes (s : State) (now : Word) : (paceTopUp s now).Writes .tick s :=
  have stepEnd : (paceStepEnd s now).Writes .tick s := .ite (tickGoto_writes fun _ => rfl) (tickStay_writes fun _ => rfl)
  .readReg fun _ => .ite (.writeBurst stepEnd) stepEnd

theorem streamRequestEnd_writes (s : State) (now : Word) (sent : BitVec 16) :
    (streamRequestEnd s now sent).Writes .tick s :=
  .ite (tickGoto_writes fun _ => rfl) (.ite (tickFail_writes fun _ => rfl) (tickStay_writes fun _ => rfl))

theorem dataFetch2End_writes (s : State) (now : Word) (got : List Byte) : (dataFetch2End s now got).Writes .tick s := by
  have kept (t : State) : (if got.isEmpty then t else (t.writeBytes (rawb + s.sess.recv) got).mapSess fun x =>
      { x with recv := s.sess.recv + BitVec.ofNat 16 got.length }).csr = t.csr := by split <;> rfl
  exact .ite (.applySeq <| .readRange fun _ => .ite (tickGoto_writes kept) (tickFail_writes kept)) <|
    .ite (.applySeq <| tickFail_writes kept) (tickStay_writes kept)

/-- The Publish tick leaves the reading, the window and its two flags, and the session is Idle. -/
theorem actPublish_writes {s : State} (now : Word) (h : s.sess.state = .publish) :
    (actPublish s now).Writes .tick s :=
  .done fun _ hu => .published _ _ _ _ _ _ _ (hu ▸ h) rfl

/-- The Fail tick leaves `SFAIL`, and the session is Idle. -/
theorem actFail_writes {s : State} (now : Word) (h : s.sess.state = .fail) : (actFail s now).Writes .tick s :=
  .strobe <| .strobe <| .strobe <| .applySeq <| .done fun _ hu => .failed _ _ _ _ _ (hu ▸ h) rfl

/-- Every action of R131, with what its tick may write. -/
theorem sessionAction_writes (s : State) (now : Word) : (sessionAction s now).Writes .tick s := by
  have goto {next} : (tickGoto next now id).Writes .tick s := tickGoto_writes fun _ => rfl
  have fail {code} : (tickFail code now id).Writes .tick s := tickFail_writes fun _ => rfl
  have stay : (tickStay id).Writes .tick s := tickStay_writes fun _ => rfl
  unfold sessionAction
  cases hs : s.sess.state
  case idle => exact stay
  case startPreamble => exact .strobe <| .applySeq <| .writeBurst <| .strobe <| tickGoto_writes fun _ => rfl
  case streamPreamble =>
    exact .ite stay <| .readReg fun _ => .ite (paceTopUp_writes s now) (.strobe (paceTopUp_writes s now))
  case guardBeforeReq => exact .ite goto stay
  case startRequest => exact .applySeq <| tickGoto_writes fun _ => rfl
  case streamRequest =>
    exact .readReg fun _ => .ite (.strobe <| .strobe <| streamRequestEnd_writes s now _) <|
      .ite (.readRange fun _ => .writeBurst <| streamRequestEnd_writes s now _) (streamRequestEnd_writes s now _)
  case waitTxFinish =>
    exact .readReg fun _ => .ite (.applySeq goto) (.ite (.applySeq fail) stay)
  case dataSetupStage1 => exact .applySeq <| .strobe <| .strobe goto
  case dataWaitSync1 => exact .level fun _ => .ite goto (.ite goto stay)
  case dataFetch1 => exact .readReg fun _ => .ite (.readBurst fun _ => goto) goto
  case dataSetupStage2 => exact .applySeq <| .strobe <| .strobe <| tickGoto_writes fun _ => rfl
  case dataWaitSync2 =>
    exact .level fun _ => .ite (.readReg fun _ => .readReg fun _ => tickGoto_writes fun _ => rfl) (.ite fail stay)
  case dataFetch2 =>
    exact .readReg fun _ => .ite (.readBurst fun bs => .ite (dataFetch2End_writes s now bs) (.stop _))
      (dataFetch2End_writes s now [])
  case decode =>
    exact .readRange fun _ => .ite (tickGoto_writes fun _ => rfl) <|
      .ite (tickFail_writes fun _ => rfl) (tickFail_writes fun _ => rfl)
  case publish => exact actPublish_writes now hs
  case fail => exact actFail_writes now hs

/-! ## The commands -/

theorem probeFlags_csr (r : ProbeResult) (s : State) :
    (probeFlags r s).csr = { s.csr with status := { s.csr.status with
      chip := r.ok, conf := if 1 < r.attempts then false else s.csr.status.conf } } := by
  unfold probeFlags
  split <;> rfl

theorem probeFlags_sess (r : ProbeResult) (s : State) : (probeFlags r s).sess = s.sess := by
  unfold probeFlags
  split <;> rfl

/-- A probe without configuration: `PROBE`, and `INIT` whose probe failed. -/
theorem probe_ends {i : Instr} (hi : i = .probe ∨ i = .init) (s : State) (r : ProbeResult) (v w : Word) :
    EndsBy i s fun t => ((probeFlags r t).setResult0 v).setResult1 w := by
  intro u _
  simp only [State.setResult1_csr, State.setResult0_csr, State.setResult1_sess, State.setResult0_sess, probeFlags_csr,
    probeFlags_sess]
  exact .probed i _ _ hi v w r.ok _ fun hconf => by rw [hconf]; split <;> rfl

theorem init_ends (s : State) (r : ProbeResult) (f : BitVec 24) (v w : Word) :
    EndsBy .init s fun t => ((configured f (probeFlags r t)).setResult0 v).setResult1 w := by
  intro u _
  simp only [configured, State.setConf_csr, State.setConf_sess, State.setResult1_csr, State.setResult0_csr,
    State.setResult1_sess, State.setResult0_sess, probeFlags_csr, probeFlags_sess]
  exact .initialised ..

theorem strobeProg_writes (s : State) : (strobeProg s).Writes .strobe s := by
  unfold strobeProg
  split
  · refine .strobe <| .done fun u _ => ?_
    split
    · exact .unconfigured _ _ _ (.inl rfl)
    · exact .results ..
  · exact .stop _

theorem configureProg_writes (s : State) : (configureProg s).Writes .configure s :=
  .configureSeq fun _ => .done fun _ _ => .configured ..

/-- The last effect of each command, whatever it is answered. -/
theorem progOf_writes (i : Instr) (s : State) : (progOf i s).Writes i s := by
  cases i
  case nop => exact writes_done_results .refl
  case wreg => exact .writeReg <| writes_done_results .refl
  case rreg => exact .readReg fun _ => writes_done_results fun u => .setResult0 <| .refl u
  case rburst =>
    exact .guardWrite <| .readBurst fun _ => writes_done_results fun u => .setResult0 <| .writeBytes <| .refl u
  case wburst => exact .readRange fun _ => .writeBurst <| writes_done_results fun u => .setResult0 <| .refl u
  case strobe => exact strobeProg_writes s
  case reset => exact .resetSeq <| .done fun _ _ => .unconfigured _ _ _ (.inr rfl)
  case probe => exact .probeSeq fun r => .done (probe_ends (.inl rfl) s r _ _)
  case configure => exact configureProg_writes s
  case enterRx =>
    have polled {u : State} {v w : Word} : ResultUpdate u ((u.setResult0 v).setResult1 w) :=
      .setResult1 <| .setResult0 <| .refl u
    exact .strobe <| .strobe <| .readReg fun _ => .ite (writes_done_results fun _ => polled) <|
      .clock fun _ => .ite (writes_done_results fun _ => polled) (.again _)
  case init =>
    exact .probeSeq fun r => .ite (.csr fun _ => .configureSeq fun f => .done (init_ends s r f _ _))
      (.done (probe_ends (.inr rfl) s r _ _))
  case diag => exact .readRegs fun _ => writes_done_results fun u => .setResult0 <| .writeBytes <| .refl u
  case rssiDbm => exact writes_done_results fun u => .setResult0 <| .refl u
  case freqWord => exact writes_done_results fun u => .setResult0 <| .refl u
  case freqHz => exact writes_done_results fun u => .setResult1 <| .setResult0 <| .refl u
  case crc16 => exact .readRange fun _ => writes_done_results fun u => .setResult1 <| .setResult0 <| .refl u
  case buildReq =>
    exact writes_done_results fun u => .setResult1 <| .setResult0 <| .writeBytes <| .writeBytes <| .refl u
  case encode =>
    exact .guardWrite <| .readRange fun _ => writes_done_results fun u => .setResult0 <| .writeBytes <| .refl u
  case decode =>
    exact .guardWrite <| .readRange fun _ => writes_done_results fun u =>
      .setResult1 <| .setResult0 <| .writeBytes <| .refl u
  case sentchk => exact .readRange fun bs => writes_done_results (sentchkResults_resultUpdate bs)
  case extract => exact .readRange fun _ => .done fun _ _ => .extracted ..
  case startRead => exact .clock fun _ => .done fun _ _ => .started ..
  case tick =>
    exact .ite (writes_done_results fun u => .setResult1 <| .setResult0 <| .refl u)
      (.clock fun now => sessionAction_writes s now)

/-! ## Host accesses -/

/-- The access is a 32-bit write at the offset of the register `r` in space 0. -/
structure WritesRegister (x : HostAccess) (r : Csr) : Prop where
  write : x.write = true
  size : x.size = .word
  space : spaceOf x.addr = 0
  offset : csrAt (offsetOf x.addr) = some r

/-- What a host access, no write of `CMD`, can make of the CSRs. -/
inductive AccessEffect (x : HostAccess) : Csrs → Csrs → Prop where
  | none (c : Csrs) : AccessEffect x c c
  | fault (c : Csrs) : AccessEffect x c { c with status := { c.status with hflt := true } }
  | register (c : Csrs) (r : Csr) (hx : WritesRegister x r) : AccessEffect x c (writeCsr x.data c r)

/-- Parameters, session and whether a command runs are the same in both states. -/
structure SameRun (s t : State) : Prop where
  params : t.params = s.params
  sess : t.sess = s.sess
  busy : t.engine.busy = s.engine.busy

theorem hostRead_writes {x : HostAccess} {s t : State} (h : hostRead x.addr x.size s = .next t) :
    SameRun s t ∧ AccessEffect x s.csr t.csr := by
  unfold hostRead at h
  split at h
  · split at h <;> cases h
    · split <;> exact ⟨⟨rfl, rfl, rfl⟩, .none _⟩
    · exact ⟨⟨rfl, rfl, rfl⟩, .fault _⟩
  · split at h
    · split at h <;> cases h
      exact ⟨⟨rfl, rfl, rfl⟩, .none _⟩
    · cases h; exact ⟨⟨rfl, rfl, rfl⟩, .fault _⟩

theorem hostWrite_writes {x : HostAccess} {s t : State} (hw : x.write = true)
    (h : hostWrite x.addr x.size x.data s = .next t) : SameRun s t ∧ AccessEffect x s.csr t.csr := by
  unfold hostWrite at h
  split at h
  next hspace =>
    split at h <;> cases h
    next r hsize hr => exact ⟨⟨rfl, rfl, rfl⟩, .register _ r ⟨hw, hsize, hspace, hr⟩⟩
    next => exact ⟨⟨rfl, rfl, rfl⟩, .fault _⟩
  next =>
    split at h <;> cases h
    · exact ⟨⟨rfl, rfl, rfl⟩, .none _⟩
    · exact ⟨⟨rfl, rfl, rfl⟩, .fault _⟩

theorem hostAccess_writes {x : HostAccess} {s t : State} (h : hostAccess x s = .next t) :
    SameRun s t ∧ AccessEffect x s.csr t.csr := by
  unfold hostAccess at h
  split at h
  · cases h; exact ⟨⟨rfl, rfl, rfl⟩, .none _⟩
  · split at h
    next hw => exact hostWrite_writes hw h
    next => exact hostRead_writes h

theorem isCmdWrite_writesRegister {x : HostAccess} {s : State} (h : isCmdWrite x s = true) :
    WritesRegister x .cmd := by
  simp only [isCmdWrite, Bool.and_eq_true, decide_eq_true_eq] at h
  obtain ⟨⟨⟨⟨_, hw⟩, hsize⟩, hspace⟩, hcsr⟩ := h
  exact ⟨hw, hsize, hspace, hcsr⟩

/-! ## Submission -/

/-- What a write of `CMD` can make of the CSRs, the command it submits included: the word is stored, and it is dropped,
refused or accepted (60_exceptions.md R152, R155). -/
inductive SubmitEffect (w : Word) (c : Csrs) : Csrs → Prop where
  | dropped : SubmitEffect w c { c with cmd := w, status := { c.status with err := true, errcode := .busy } }
  | refused (code : ErrCode) :
      SubmitEffect w c { c with cmd := w, status := { c.status with done := true, err := true, errcode := code } }
  | accepted : SubmitEffect w c { c with cmd := w }

/-- A write of `CMD` as a whole step: parameters and session stay. -/
structure Submits (w : Word) (s t : State) : Prop where
  params : t.params = s.params
  sess : t.sess = s.sess
  csr : SubmitEffect w s.csr t.csr

/-- What is left of a step once `turn` has answered: the command it names, if any, is run. -/
def Runs : State × Option Instr → State → Prop
  | (u, some i), t => exec i u = .next t
  | (u, none), t => u = t

/-- With an idle engine, running a command is its submission. -/
theorem exec_idle {i : Instr} {s t : State} (hidle : s.engine.busy = false) (h : exec i s = .next t) :
    (∃ code, t = s.refuse code) ∨ t = s.accept i := by
  rw [exec_eq, runCommand_idle hidle, Host.Outcome.next.injEq] at h
  subst h
  exact s.submit_cases i _

theorem onCmdWrite_writes {w : Word} {s t : State} (h : Runs (onCmdWrite w s) t) : Submits w s t := by
  simp only [onCmdWrite] at h
  split at h
  · cases h; exact ⟨rfl, rfl, .dropped⟩
  next hidle =>
    split at h
    · rcases exec_idle (Bool.eq_false_iff.mpr hidle) h with ⟨code, rfl⟩ | rfl
      · exact ⟨rfl, rfl, .refused code⟩
      · exact ⟨rfl, rfl, .accepted⟩
    · cases h; exact ⟨rfl, rfl, .refused _⟩
    · cases h; exact ⟨rfl, rfl, .refused _⟩

/-! ## Block steps -/

theorem instrOfOpcode_some {opc : Byte} {i : Instr} (h : instrOfOpcode opc = some i) : opc = opcodeOf i := by
  unfold instrOfOpcode at h
  split at h <;> cases h <;> exact BitVec.eq_of_toNat_eq ‹_›

/-- The command `i` of the engine's opcode completes, with its last effect and `DONE`. -/
structure Completes (i : Instr) (s t : State) : Prop where
  params : t.params = s.params
  busy : s.engine.busy = true
  idle : t.engine.busy = false
  opc : s.engine.opc = opcodeOf i
  effect : ∃ c, LastEffect i s.csr s.sess c t.sess ∧ t.csr = { c with status := { c.status with done := true } }

/-- A block step shows nothing, or completes its command. -/
theorem exec_busy_writes {i : Instr} {s t : State} (hb : s.engine.busy = true) (hopc : s.engine.opc = opcodeOf i)
    (h : exec i s = .next t) : (SameRun s t ∧ t.csr = s.csr) ∨ Completes i s t := by
  rw [exec_eq] at h
  rcases runCommand_busy hb h with ⟨fx, u, hends, hmid, rfl⟩ | hmid
  · have hparams : (fx u).params = u.params := by rw [progOf_framed i s fx hends u]
    have heffect := progOf_writes i s fx hends u hmid.sess
    rw [hmid.csr, hmid.sess] at heffect
    exact .inr ⟨hparams.trans hmid.params, hb, rfl, hopc, _, heffect, rfl⟩
  · exact .inl ⟨⟨hmid.params, hmid.sess, by rw [hmid.engine]⟩, hmid.csr⟩

/-! ## A step -/

/-- All that a step, a change of `RST_N` apart, can make of the CSRs, the session and the parameters. -/
inductive StepWrites (s t : State) : Prop where
  | quiet (same : SameRun s t) (csr : t.csr = s.csr)
  | access (x : HostAccess) (rest : List HostEvent) (host : s.env.host = .access x :: rest) (same : SameRun s t)
      (effect : AccessEffect x s.csr t.csr)
  | submission (x : HostAccess) (rest : List HostEvent) (host : s.env.host = .access x :: rest)
      (cmd : WritesRegister x .cmd) (submits : Submits x.data s t)
  | completion (i : Instr) (completes : Completes i s t)

/-- The block's turn, once the host's list has changed: nothing shows, or the running command completes. -/
theorem blockTurn_popHost_writes {s t : State} {rest : List HostEvent} {r : State × Option Instr}
    (h : blockTurn (s.popHost rest) = .next r) (hr : Runs r t) : StepWrites s t := by
  unfold blockTurn at h
  split at h
  next hrun =>
    have hbusy : s.engine.busy = true := (Bool.and_eq_true_iff.mp hrun).2
    split at h <;> cases h
    next i hi =>
      rcases exec_busy_writes (s := s.popHost rest) hbusy (instrOfOpcode_some hi) hr with
        ⟨⟨hparams, hsess, hbusy⟩, hcsr⟩ | ⟨hparams, hbusy, hidle, hopc, heffect⟩
      · exact .quiet ⟨hparams, hsess, hbusy⟩ hcsr
      · exact .completion i ⟨hparams, hbusy, hidle, hopc, heffect⟩
  next =>
    cases h; cases hr
    exact .quiet ⟨rfl, rfl, rfl⟩ rfl

/-- The host's next event, or the block's turn, with the command it runs. -/
theorem turn_writes {s t : State} {r : State × Option Instr} (h : turn s = .next r) (hr : Runs r t)
    (hrst : ∀ level rest, s.env.host ≠ .rstN level :: rest) : StepWrites s t := by
  have quiet {l : List HostEvent} (hr : Runs (s.popHost l, none) t) : StepWrites s t := by
    cases hr; exact .quiet ⟨rfl, rfl, rfl⟩ rfl
  cases hhost : s.env.host with
  | nil =>
    simp only [turn, hhost] at h
    exact blockTurn_popHost_writes (rest := s.env.host) h hr
  | cons e rest =>
    cases e <;> simp only [turn, hhost] at h
    case access x =>
      split at h
      next hcmd =>
        cases h
        obtain ⟨hparams, hsess, heffect⟩ := onCmdWrite_writes hr
        exact .submission x rest hhost (isCmdWrite_writesRegister hcmd) ⟨hparams, hsess, heffect⟩
      next =>
        split at h <;> cases h
        next hacc =>
          cases hr
          obtain ⟨⟨hparams, hsess, hbusy⟩, heffect⟩ := hostAccess_writes (s := s.popHost rest) hacc
          exact .access x rest hhost ⟨hparams, hsess, hbusy⟩ heffect
    case pause => exact blockTurn_popHost_writes h hr
    case wait =>
      split at h
      · exact blockTurn_popHost_writes (rest := s.env.host) h hr
      · cases h; exact quiet hr
    case tickUntil => cases h; exact quiet hr
    case untilState =>
      cases h
      split at hr <;> exact quiet hr
    case rstN level => exact absurd hhost (hrst level rest)

/-- The four kinds of a step. -/
theorem step_writes {s t : State} (h : step s = .next t) (hrst : ∀ level rest, s.env.host ≠ .rstN level :: rest) :
    StepWrites s t := by
  unfold step at h
  split at h
  next hturn => exact turn_writes hturn h hrst
  next hturn => cases h; exact turn_writes hturn rfl hrst
  next => cases h
  next => cases h

/-! ## The register a host write names -/

theorem csrAt_eq_cmd {off : Nat} (h : csrAt off = some .cmd) : off = 0x000 := by
  unfold csrAt at h
  split at h <;> cases h
  rfl

theorem csrAt_eq_status {off : Nat} (h : csrAt off = some .status) : off = 0x014 := by
  unfold csrAt at h
  split at h <;> cases h
  rfl

theorem WritesRegister.toNat_addr {x : HostAccess} {r : Csr} (h : WritesRegister x r) :
    x.addr.toNat = offsetOf x.addr := by
  have hspace := h.space
  unfold spaceOf at hspace
  unfold offsetOf
  omega

theorem WritesRegister.addr_lt {x : HostAccess} {r : Csr} (h : WritesRegister x r) : x.addr.toNat < 0x1000 := by
  rw [h.toNat_addr]
  exact Nat.mod_lt _ (by decide)

theorem WritesRegister.addr_of_cmd {x : HostAccess} (h : WritesRegister x .cmd) : x.addr = 0x000 :=
  BitVec.eq_of_toNat_eq <| h.toNat_addr.trans (csrAt_eq_cmd h.offset)

theorem WritesRegister.addr_of_status {x : HostAccess} (h : WritesRegister x .status) : x.addr = 0x014 :=
  BitVec.eq_of_toNat_eq <| h.toNat_addr.trans (csrAt_eq_status h.offset)

section
variable (w : Word) (c : Csrs) (r : Csr)

/-! What no host write of a register changes (20_memory.md R46). -/

@[simp] theorem writeCsr_result0 : (writeCsr w c r).result0 = c.result0 := by cases r <;> rfl
@[simp] theorem writeCsr_result1 : (writeCsr w c r).result1 = c.result1 := by cases r <;> rfl
@[simp] theorem writeCsr_reading : (writeCsr w c r).reading = c.reading := by cases r <;> rfl
@[simp] theorem writeCsr_learn : (writeCsr w c r).learn = c.learn := by cases r <;> rfl
@[simp] theorem writeCsr_freqWordCur : (writeCsr w c r).freqWordCur = c.freqWordCur := by cases r <;> rfl

theorem writeCsr_status : (writeCsr w c r).status = if r = .status then clearStatus w c.status else c.status := by
  cases r <;> rfl

end

/-- Settles O52: each row is read off the four kinds of a step. -/
theorem eachRegisterHasItsWriters : Obligations.EachRegisterHasItsWriters := by
  intro s t hstep hrst
  dsimp only
  cases step_writes hstep hrst with
  | quiet same csr => simp [csr, same.params, same.sess, same.busy]
  | access x rest host same effect =>
    obtain ⟨hparams, hsess, hbusy⟩ := same
    generalize t.csr = c at effect
    cases effect with
    | none => simp [hparams, hsess, hbusy]
    | fault => simp [hparams, hsess, hbusy, host]
    | register r hx =>
      have haddr := hx.addr_lt
      by_cases hr : r = .status
      · subst hr
        have hstatus := hx.addr_of_status
        simp +contextual [hparams, hsess, hbusy, host, hx.write, hx.size, writeCsr_status, hstatus, clearStatus]
      · simp [hparams, hsess, hbusy, host, hx.write, writeCsr_status, hr, haddr]
  | submission x rest host cmd submits =>
    have haddr := cmd.addr_of_cmd
    obtain ⟨hparams, hsess, heffect⟩ := submits
    generalize t.csr = c at heffect
    cases heffect with
    | dropped => simp [hparams, hsess, host, cmd.write, cmd.size, haddr]
    | refused code => simp [hparams, hsess, host, cmd.write, cmd.size, haddr]
    | accepted => simp [hparams, hsess, host, cmd.write, cmd.size, haddr]
  | completion i completes =>
    obtain ⟨hparams, hbusy, hidle, hopc, c, heffect, hcsr⟩ := completes
    rw [hcsr, hparams, hbusy, hidle, hopc]
    clear hcsr
    generalize t.sess = y at heffect ⊢
    cases heffect with
    | results => simp
    | unconfigured _ _ _ hi => rcases hi with rfl | rfl <;> simp [opcodeOf]
    | probed _ _ _ hi _ _ _ _ hconf => rcases hi with rfl | rfl <;> simp +contextual [opcodeOf, hconf]
    | configured => simp [opcodeOf]
    | initialised => simp [opcodeOf]
    | extracted => simp [opcodeOf]
    | started => simp [opcodeOf]
    | ticked => simp [opcodeOf]
    | published _ _ _ _ _ _ _ hpublish hidle => simp +contextual [opcodeOf, hpublish, hidle]
    | failed _ _ _ _ _ hfail hidle => simp [opcodeOf, hfail, hidle]

end Sys2Proof.Machine

/-! PROOFS. What the host reads of each register, field by field, and the interrupt output (10_state.md R21 to R36,
60_exceptions.md R162).

Each register is a string of its fields. A lemma for each register gives the slice at each field's place; bits and
numbers are read off the slices. -/

namespace Sys2Proof.Machine

/-! ## Slices of a word -/

/-- A slice of one bit is that bit. -/
theorem getLsbD_of_slice {w : Word} {n : Nat} {b : Bool} (h : w.extractLsb' n 1 = bit b) : w.getLsbD n = b :=
  calc w.getLsbD n = (w.extractLsb' n 1).getLsbD 0 := by simp
    _ = (bit b).getLsbD 0 := by rw [h]
    _ = b := by cases b <;> rfl

/-- The word has these fields: place, width and number of each. -/
def HasFields (w : Word) (parts : List (Nat × Nat × Nat)) : Prop :=
  ∀ part ∈ parts, w.toNat / 2 ^ part.1 % 2 ^ part.2.1 = part.2.2

theorem HasFields.nil {w : Word} : HasFields w [] := fun _ h => nomatch h

theorem HasFields.cons {w : Word} {lo len : Nat} {v : BitVec len} {rest : List (Nat × Nat × Nat)}
    (h : w.extractLsb' lo len = v) (hrest : HasFields w rest) : HasFields w ((lo, len, v.toNat) :: rest) :=
  List.forall_mem_cons.mpr ⟨by rw [← h, BitVec.extractLsb'_toNat, Nat.shiftRight_eq_div_pow], hrest⟩

theorem HasFields.consBit {w : Word} {lo : Nat} {b : Bool} {rest : List (Nat × Nat × Nat)}
    (h : w.extractLsb' lo 1 = bit b) (hrest : HasFields w rest) : HasFields w ((lo, 1, b.toNat) :: rest) := by
  have hbit : (bit b).toNat = b.toNat := BitVec.toNat_ofBool b
  exact hbit ▸ HasFields.cons h hrest

/-- A register narrower than a word reads as its value, and 0 above. -/
theorem hasFields_setWidth {n m : Nat} (v : BitVec n) (h : n + m = 32) :
    HasFields (v.setWidth 32) [(0, n, v.toNat), (n, m, 0)] := by
  have hlt : v.toNat < 2 ^ n := v.isLt
  have hwidth : v.toNat < 2 ^ 32 := hlt.trans_le (Nat.pow_le_pow_right (by decide) (by omega))
  have hword : (v.setWidth 32).toNat = v.toNat := by rw [BitVec.toNat_setWidth, Nat.mod_eq_of_lt hwidth]
  refine List.forall_mem_cons.mpr ⟨?_, List.forall_mem_singleton.mpr ?_⟩
  · simp only [hword, pow_zero, Nat.div_one, Nat.mod_eq_of_lt hlt]
  · simp only [hword, Nat.div_eq_of_lt hlt, Nat.zero_mod]

/-! ## The registers' slices -/

theorem statusWord_slices (s : State) :
    s.statusWord.extractLsb' 0 1 = bit s.engine.busy ∧ s.statusWord.extractLsb' 1 1 = bit s.csr.status.done ∧
    s.statusWord.extractLsb' 2 1 = bit s.csr.status.err ∧ s.statusWord.extractLsb' 3 1 = bit s.sact ∧
    s.statusWord.extractLsb' 4 1 = bit s.csr.status.sok ∧ s.statusWord.extractLsb' 5 1 = bit s.csr.status.sfail ∧
    s.statusWord.extractLsb' 6 1 = bit s.csr.status.pub ∧ s.statusWord.extractLsb' 7 1 = bit s.csr.status.chip ∧
    s.statusWord.extractLsb' 8 1 = bit s.csr.status.conf ∧ s.statusWord.extractLsb' 9 1 = bit s.csr.status.hflt ∧
    s.statusWord.extractLsb' 10 6 = 0 ∧ s.statusWord.extractLsb' 24 8 = 0 ∧
    s.statusWord.extractLsb' 16 8 = errNumber s.csr.status.errcode := by
  simp (disch := decide) only [State.statusWord, BitVec.extractLsb'_append_eq_of_le,
    BitVec.extractLsb'_append_eq_of_add_le]
  and_intros <;> exact BitVec.extractLsb'_eq_self

theorem seqWord_slices (x : Session) :
    (seqWord x).extractLsb' 0 5 = sessNumber x.state ∧ (seqWord x).extractLsb' 5 3 = 0 ∧
    (seqWord x).extractLsb' 8 1 = bit x.pub ∧ (seqWord x).extractLsb' 9 7 = 0 ∧
    (seqWord x).extractLsb' 24 8 = 0 ∧ (seqWord x).extractLsb' 16 8 = failNumber x.failcode := by
  simp (disch := decide) only [seqWord, BitVec.extractLsb'_append_eq_of_le, BitVec.extractLsb'_append_eq_of_add_le]
  and_intros <;> exact BitVec.extractLsb'_eq_self

/-- Two halves: `SEQ_TX`, `SEQ_RX`. -/
theorem halves_slices (hi lo : BitVec 16) :
    (hi ++ lo : Word).extractLsb' 0 16 = lo ∧ (hi ++ lo : Word).extractLsb' 16 16 = hi := by
  simp (disch := decide) only [BitVec.extractLsb'_append_eq_of_le, BitVec.extractLsb'_append_eq_of_add_le]
  and_intros <;> exact BitVec.extractLsb'_eq_self

theorem rdFieldsWord_slices (r : Reading) :
    (rdFieldsWord r).extractLsb' 0 8 = r.reads ∧ (rdFieldsWord r).extractLsb' 8 8 = r.batt ∧
    (rdFieldsWord r).extractLsb' 16 8 = r.hstart ∧ (rdFieldsWord r).extractLsb' 24 8 = r.hend := by
  simp (disch := decide) only [rdFieldsWord, BitVec.extractLsb'_append_eq_of_le,
    BitVec.extractLsb'_append_eq_of_add_le]
  and_intros <;> exact BitVec.extractLsb'_eq_self

theorem rdLinkWord_slices (r : Reading) :
    (rdLinkWord r).extractLsb' 0 8 = r.rssiRaw ∧ (rdLinkWord r).extractLsb' 8 8 = r.lqi ∧
    (rdLinkWord r).extractLsb' 16 16 = r.rssiX2 := by
  simp (disch := decide) only [rdLinkWord, BitVec.extractLsb'_append_eq_of_le, BitVec.extractLsb'_append_eq_of_add_le]
  and_intros <;> exact BitVec.extractLsb'_eq_self

theorem rdValidWord_slices (r : Reading) :
    (rdValidWord r).extractLsb' 0 1 = bit r.litV ∧ (rdValidWord r).extractLsb' 1 1 = bit r.fldV ∧
    (rdValidWord r).extractLsb' 2 1 = bit r.linkV ∧ (rdValidWord r).extractLsb' 3 13 = 0 ∧
    (rdValidWord r).extractLsb' 16 16 = r.decLen := by
  simp (disch := decide) only [rdValidWord, BitVec.extractLsb'_append_eq_of_le,
    BitVec.extractLsb'_append_eq_of_add_le]
  and_intros <;> exact BitVec.extractLsb'_eq_self

theorem learnWord_slices (l : LearnWin) :
    (learnWord l).extractLsb' 0 8 = l.hstart ∧ (learnWord l).extractLsb' 8 8 = l.hend ∧
    (learnWord l).extractLsb' 16 1 = bit l.known ∧ (learnWord l).extractLsb' 17 15 = 0 := by
  simp (disch := decide) only [learnWord, BitVec.extractLsb'_append_eq_of_le, BitVec.extractLsb'_append_eq_of_add_le]
  and_intros <;> exact BitVec.extractLsb'_eq_self

/-! ## The interrupt output -/

/-- The mask has exactly the six interrupt sources' bits. -/
theorem ienMask_getLsbD : ∀ n < 32, ienMask.getLsbD n = decide (n ∈ [1, 2, 4, 5, 6, 9]) := by decide

theorem and_ienMask_eq_zero_iff (w : Word) :
    w &&& ienMask = 0 ↔ ∀ n ∈ [1, 2, 4, 5, 6, 9], w.getLsbD n = false := by
  constructor
  · intro h n hn
    have hlt : n < 32 := by revert n; decide
    have hbit : (w &&& ienMask).getLsbD n = false := by rw [h]; exact BitVec.getLsbD_zero
    simpa only [BitVec.getLsbD_and, ienMask_getLsbD n hlt, decide_eq_true hn, Bool.and_true] using hbit
  · intro h
    refine BitVec.eq_of_getLsbD_eq fun n hlt => ?_
    rw [BitVec.getLsbD_and, ienMask_getLsbD n hlt]
    by_cases hn : n ∈ [1, 2, 4, 5, 6, 9]
    · rw [h n hn, Bool.false_and]; exact BitVec.getLsbD_zero.symm
    · rw [decide_eq_false hn, Bool.and_false]; exact BitVec.getLsbD_zero.symm

theorem irq_eq_any (s : State) :
    s.irq = [1, 2, 4, 5, 6, 9].any fun n => s.statusWord.getLsbD n && s.csr.ien.getLsbD n := by
  have hzero := and_ienMask_eq_zero_iff (s.statusWord &&& s.csr.ien)
  simp only [BitVec.getLsbD_and] at hzero
  rw [State.irq, Bool.eq_iff_iff, decide_eq_true_iff, ne_eq, hzero, List.any_eq_true]
  simp only [not_forall, Bool.not_eq_false, exists_prop]

/-- Settles O57: each register's slices give its fields, and the stored registers read as stored. -/
theorem statusFieldsAndInterrupt : Obligations.StatusFieldsAndInterrupt := by
  intro s
  refine ⟨?status, ?seq, ⟨rfl, rfl, rfl, ?tx, ?rx⟩, ⟨rfl, ?rdFields, ?rdLink, ?rdValid, ?learn⟩,
    ⟨rfl, rfl, rfl, rfl, rfl, rfl, rfl, rfl, rfl, rfl, rfl, hasFields_setWidth _ rfl, hasFields_setWidth _ rfl⟩,
    ⟨rfl, rfl, rfl, rfl, rfl, rfl, rfl⟩, irq_eq_any s⟩
  case status =>
    obtain ⟨busy, done, err, sact, sok, sfail, pub, chip, conf, hflt, low, high, code⟩ := statusWord_slices s
    refine ⟨getLsbD_of_slice busy, getLsbD_of_slice done, getLsbD_of_slice err, getLsbD_of_slice sact,
      getLsbD_of_slice sok, getLsbD_of_slice sfail, getLsbD_of_slice pub, getLsbD_of_slice chip,
      getLsbD_of_slice conf, getLsbD_of_slice hflt, low, high, code.trans ?_⟩
    cases s.csr.status.errcode <;> rfl
  case seq =>
    obtain ⟨state, low, pub, mid, high, code⟩ := seqWord_slices s.sess
    refine ⟨state.trans ?_, low, getLsbD_of_slice pub, mid, high, code.trans ?_⟩
    · cases s.sess.state <;> rfl
    · cases s.sess.failcode <;> rfl
  case tx =>
    obtain ⟨sent, reqLen⟩ := halves_slices s.sess.reqLen s.sess.sent
    exact HasFields.cons sent <| .cons reqLen .nil
  case rx =>
    obtain ⟨recv, target⟩ := halves_slices s.sess.target s.sess.recv
    exact HasFields.cons recv <| .cons target .nil
  case rdFields =>
    obtain ⟨reads, batt, hstart, hend⟩ := rdFieldsWord_slices s.csr.reading
    exact HasFields.cons reads <| .cons batt <| .cons hstart <| .cons hend .nil
  case rdLink =>
    obtain ⟨rssiRaw, lqi, rssiX2⟩ := rdLinkWord_slices s.csr.reading
    exact HasFields.cons rssiRaw <| .cons lqi <| .cons rssiX2 .nil
  case rdValid =>
    obtain ⟨litV, fldV, linkV, zero, decLen⟩ := rdValidWord_slices s.csr.reading
    exact HasFields.consBit litV <| .consBit fldV <| .consBit linkV <| .cons zero <| .cons decLen .nil
  case learn =>
    obtain ⟨hstart, hend, known, zero⟩ := learnWord_slices s.csr.learn
    exact HasFields.cons hstart <| .cons hend <| .consBit known <| .cons zero .nil

end Sys2Proof.Machine

/-! PROOFS. What a byte of spaces 1 to 7 reads as, and `MemRead` byte by byte (20_memory.md R41, R48, 00_scope.md
R12). -/

namespace Sys2Proof.Machine

/-! ## One byte -/

/-- The space and the offset of a writable byte (20_memory.md R49). -/
theorem writableRange_one_iff {a : HostAddr} :
    writableRange a 1 = true ↔ 1 ≤ spaceOf a ∧ spaceOf a ≤ 5 ∧ offsetOf a < spaceSize (spaceOf a) := by
  simp only [writableRange, readableRange, Bool.and_eq_true, decide_eq_true_eq]
  omega

/-- A byte of a writable buffer reads as the buffers hold it. -/
theorem State.readByte_of_writable {s : State} {a : HostAddr} (h : writableRange a 1 = true) :
    s.readByte a = s.mem.read a.toNat := by
  obtain ⟨_, hspace, hoff⟩ := writableRange_one_iff.mp h
  rw [State.readByte, if_pos hoff, if_neg (by omega), if_neg (by omega)]

/-- An address spelled by its space and offset. -/
theorem spaceOf_offsetOf_ofNat {space off : Nat} (hspace : space < 16) (hoff : off < 4096) :
    spaceOf (BitVec.ofNat 16 (4096 * space + off)) = space ∧ offsetOf (BitVec.ofNat 16 (4096 * space + off)) = off := by
  simp only [spaceOf, offsetOf, BitVec.toNat_ofNat]
  omega

theorem State.readByte_crct (s : State) {off : Nat} (h : off < 512) :
    s.readByte (BitVec.ofNat 16 (0x6000 + off)) = some (crctByte off) := by
  obtain ⟨hspace, hoff⟩ := spaceOf_offsetOf_ofNat (space := 6) (off := off) (by decide) (by omega)
  rw [State.readByte, hspace, hoff, if_pos (show off < spaceSize 6 from h), if_pos rfl]

theorem State.readByte_tmpl (s : State) {off : Nat} (h : off < 28) :
    s.readByte (BitVec.ofNat 16 (0x7000 + off)) = tmplByte s.params off := by
  obtain ⟨hspace, hoff⟩ := spaceOf_offsetOf_ofNat (space := 7) (off := off) (by decide) (by omega)
  rw [State.readByte, hspace, hoff, if_pos (show off < spaceSize 7 from h), if_neg (by decide), if_pos rfl]

/-- Entry `i` of CRCT stands at `2 i`, low byte first (42_checksum.md R99). -/
theorem crctByte_entry (i : Nat) :
    crctByte (2 * i) = (crcEntry (BitVec.ofNat 8 i)).extractLsb' 0 8 ∧
    crctByte (2 * i + 1) = (crcEntry (BitVec.ofNat 8 i)).extractLsb' 8 8 := by
  have heven : 2 * i / 2 = i ∧ 2 * i % 2 = 0 := by omega
  have hodd : (2 * i + 1) / 2 = i ∧ (2 * i + 1) % 2 ≠ 0 := by omega
  simp only [crctByte, heven, hodd, if_true, if_false, and_self]

theorem tmplByte_eq (p : Params) (off : Nat) :
    tmplByte p off = if off < 9 then p.syncPattern[off]? else p.reqTemplate[off - 9]? := by
  simp only [tmplByte, List.getElem?_append, Vector.length_toList, Vector.getElem?_toList]

/-! ## A range -/

/-- `MemRead` gives a list exactly when it holds each byte of the range. -/
theorem State.readBytes_eq_some_iff {s : State} {a : HostAddr} {n : Nat} {bs : List Byte} :
    s.readBytes a n = some bs ↔
      bs.length = n ∧ ∀ i, i < n → s.readByte (a + BitVec.ofNat 16 i) = bs[i]? := by
  induction n generalizing bs with
  | zero => simp [State.readBytes]
  | succ n ih =>
    constructor
    · intro h
      have hlen := State.readBytes_length h
      simp only [State.readBytes] at h
      split at h
      next front last hfront hlast =>
        obtain rfl : front ++ [last] = bs := Option.some.inj h
        obtain ⟨hn, hbytes⟩ := ih.mp hfront
        refine ⟨hlen, fun i hi => ?_⟩
        rcases Nat.lt_succ_iff_lt_or_eq.mp hi with hlt | rfl
        · rw [hbytes i hlt, List.getElem?_append_left (hn ▸ hlt)]
        · rw [hlast, ← hn, List.getElem?_concat_length]
      next => cases h
    · rintro ⟨hlen, hbytes⟩
      have hne : bs ≠ [] := List.ne_nil_of_length_eq_add_one hlen
      obtain ⟨front, last, rfl⟩ : ∃ front last, bs = front ++ [last] := ⟨_, _, (List.dropLast_append_getLast hne).symm⟩
      have hn : front.length = n := by simpa using hlen
      have hfront : s.readBytes a n = some front := ih.mpr ⟨hn, fun i hi => by
        rw [hbytes i (by omega), List.getElem?_append_left (hn ▸ hi)]⟩
      have hlast : s.readByte (a + BitVec.ofNat 16 n) = some last := by
        rw [hbytes n (by omega), ← hn, List.getElem?_concat_length]
      simp only [State.readBytes, hfront, hlast]

/-- Settles O54: one byte by its space, and the ranges by `State.readBytes_eq_some_iff`. -/
theorem memReadReadsEachByte : Obligations.MemReadReadsEachByte := by
  refine ⟨fun s a h => State.readByte_of_writable h, fun s i hi => ?crct, fun s i hi => ?tmpl,
    fun s a n bs => State.readBytes_eq_some_iff⟩
  case crct =>
    obtain ⟨heven, hodd⟩ := crctByte_entry i
    refine ⟨?_, ?_⟩
    · rw [s.readByte_crct (by omega), heven]
    · rw [show 0x6001 + 2 * i = 0x6000 + (2 * i + 1) by omega, s.readByte_crct (by omega), hodd]
  case tmpl => rw [s.readByte_tmpl hi, tmplByte_eq]

end Sys2Proof.Machine

/-! PROOFS. What a block step of a running command shows (20_memory.md R51, 60_exceptions.md R153).

A block step ends in a `MidStep`, or completes the command on one. The completion is a `BlockUpdate`, and of the CSRs it
leaves a `LastEffect`; both are known for every command. -/

namespace Sys2Proof.Machine

/-- The CSRs `d` have what only the host writes, and the error bits, as in `c`. -/
structure HostPartKept (c d : Csrs) : Prop where
  err : d.status.err = c.status.err
  errcode : d.status.errcode = c.status.errcode
  hflt : d.status.hflt = c.status.hflt
  cmd : d.cmd = c.cmd
  args : d.args = c.args
  ien : d.ien = c.ien
  meterId : d.meterId = c.meterId
  freq : d.freq = c.freq
  budgets : d.budgets = c.budgets
  frameSize : d.frameSize = c.frameSize

theorem LastEffect.hostPartKept {i : Instr} {c d : Csrs} {x y : Session} (h : LastEffect i c x d y) :
    HostPartKept c d := by
  cases h <;> exact ⟨rfl, rfl, rfl, rfl, rfl, rfl, rfl, rfl, rfl, rfl⟩

/-- The completing block step: `u` is the state before the command's last effect. -/
structure CompletesFrom (i : Instr) (s u t : State) : Prop where
  mid : MidStep true s u
  ends : ∃ fx, (progOf i s).Ends fx ∧ t = (fx u).complete

/-- A block step of a running command leaves it running, or completes it. -/
theorem exec_busy_cases {i : Instr} {s t : State} (hb : s.engine.busy = true) (h : exec i s = .next t) :
    MidStep true s t ∨ ∃ u, CompletesFrom i s u t := by
  rw [exec_eq] at h
  rcases runCommand_busy hb h with ⟨fx, u, hends, hmid, rfl⟩ | hmid
  · exact .inr ⟨u, hmid, fx, hends, rfl⟩
  · exact .inl hmid

namespace CompletesFrom

variable {i : Instr} {s u t : State}

theorem params (h : CompletesFrom i s u t) : t.params = s.params := by
  obtain ⟨hmid, fx, hends, rfl⟩ := h
  rw [State.complete_params, progOf_framed i s fx hends u, hmid.params]

theorem port (h : CompletesFrom i s u t) : t.port = s.port := by
  obtain ⟨hmid, fx, hends, rfl⟩ := h
  rw [State.complete_port, progOf_framed i s fx hends u, hmid.port]

theorem host (h : CompletesFrom i s u t) : t.env.host = s.env.host := by
  obtain ⟨hmid, fx, hends, rfl⟩ := h
  rw [State.complete_env, (progOf_framed i s fx hends u).env, hmid.host]

theorem engine (h : CompletesFrom i s u t) : t.engine = { s.engine with busy := false, replies := [] } := by
  obtain ⟨hmid, fx, hends, rfl⟩ := h
  rw [State.complete_engine, progOf_framed i s fx hends u, hmid.engine]

theorem done (h : CompletesFrom i s u t) : t.csr.status.done = true := by
  obtain ⟨_, fx, _, rfl⟩ := h
  rfl

theorem hostPartKept (h : CompletesFrom i s u t) : HostPartKept s.csr t.csr := by
  obtain ⟨hmid, fx, hends, rfl⟩ := h
  obtain ⟨err, errcode, hflt, cmd, args, ien, meterId, freq, budgets, frameSize⟩ :=
    (progOf_writes i s fx hends u hmid.sess).hostPartKept
  rw [← hmid.csr]
  exact ⟨err, errcode, hflt, cmd, args, ien, meterId, freq, budgets, frameSize⟩

end CompletesFrom

/-- Settles O6: a step that leaves the command running is a `MidStep`, one that completes it a `CompletesFrom`. -/
theorem effectsShowOnlyAtCompletion : Obligations.EffectsShowOnlyAtCompletion := by
  intro i s t hbusy hexec
  rcases exec_busy_cases hbusy hexec with hmid | ⟨u, hdone⟩
  · have hrunning : t.engine.busy = true := by rw [hmid.engine]; exact hbusy
    refine ⟨hmid.params, hmid.port, hmid.host, ?_, fun _ => ⟨hmid.csr, hmid.sess, hmid.mem⟩, fun hidle => ?_⟩
    · rw [hrunning, ← hbusy]; exact hmid.engine
    · rw [hrunning] at hidle; cases hidle
  · have hengine := hdone.engine
    have kept := hdone.hostPartKept
    refine ⟨hdone.params, hdone.port, hdone.host, by rw [hengine], fun hrunning => ?_, fun _ => ?_⟩
    · rw [hengine] at hrunning; cases hrunning
    · exact ⟨by rw [hengine], hdone.done, kept.err, kept.errcode, kept.hflt, kept.cmd, kept.args, kept.ien,
        kept.meterId, kept.freq, kept.budgets, kept.frameSize⟩

end Sys2Proof.Machine

/-! PROOFS. What the host's accesses read and write, and which are host faults (10_state.md R18 to R34, 20_memory.md R43
to R48, 60_exceptions.md R157).

Each of `hostRead` and `hostWrite` has one equation for each kind of access; a step that is an access is one of the
two. -/

namespace Sys2Proof.Machine

/-! ## The register map -/

theorem csrAt_eq_some_iff {off : Nat} {c : Csr} : csrAt off = some c ↔ (off, c) ∈ csrMap := by
  constructor
  · intro h
    unfold csrAt at h
    split at h <;> cases h <;> decide
  · have hmap : ∀ e ∈ csrMap, csrAt e.1 = some e.2 := by decide
    exact hmap (off, c)

theorem csrAt_isSome_iff {off : Nat} : (csrAt off).isSome = true ↔ off ∈ csrMap.map Prod.fst := by
  simp only [Option.isSome_iff_exists, csrAt_eq_some_iff, List.mem_map, Prod.exists, exists_and_right, exists_eq_right]

/-- Every register of the map stands in space 0. -/
theorem spaceOf_of_mem_csrMap {a : HostAddr} {c : Csr} (h : (a.toNat, c) ∈ csrMap) :
    spaceOf a = 0 ∧ csrAt (offsetOf a) = some c := by
  have hlow : ∀ e ∈ csrMap, e.1 < 4096 := by decide
  have hlt : a.toNat < 4096 := hlow _ h
  refine ⟨Nat.div_eq_of_lt hlt, csrAt_eq_some_iff.mpr ?_⟩
  rwa [offsetOf, Nat.mod_eq_of_lt hlt]

/-! ## What an access allows -/

/-- The access is none of those that 60_exceptions.md R157 lists: a register of the map at 32 bits, or a byte of spaces
1 to 7 at 8 bits, which for a write lies in an unblocked buffer (20_memory.md R43, R44, R47). -/
def Allowed (x : HostAccess) (s : State) : Prop :=
  if spaceOf x.addr = 0 then x.size = .word ∧ (csrAt (offsetOf x.addr)).isSome = true
  else x.size = .byte ∧ spaceOf x.addr ≤ 7 ∧ offsetOf x.addr < spaceSize (spaceOf x.addr) ∧
    (x.write = true → spaceOf x.addr ≤ 5 ∧ writeBlocked (spaceOf x.addr) s = false)

theorem allowed_register_iff {x : HostAccess} {s : State} (h : spaceOf x.addr = 0) :
    Allowed x s ↔ x.size = .word ∧ (csrAt (offsetOf x.addr)).isSome = true := by
  rw [Allowed, if_pos h]

theorem allowed_byte_iff {x : HostAccess} {s : State} (h : spaceOf x.addr ≠ 0) :
    Allowed x s ↔ x.size = .byte ∧ spaceOf x.addr ≤ 7 ∧ offsetOf x.addr < spaceSize (spaceOf x.addr) ∧
      (x.write = true → spaceOf x.addr ≤ 5 ∧ writeBlocked (spaceOf x.addr) s = false) := by
  rw [Allowed, if_neg h]

section Reads
variable {a : HostAddr} (s : State)

theorem hostRead_register {c : Csr} (hspace : spaceOf a = 0) (hcsr : csrAt (offsetOf a) = some c) (hc : c ≠ .now) :
    hostRead a .word s = .next (s.respond (readCsr s c) false) := by
  simp only [hostRead, hspace, hcsr, if_true, if_neg hc]

theorem hostRead_now (hspace : spaceOf a = 0) (hcsr : csrAt (offsetOf a) = some .now) :
    hostRead a .word s = .next (s.ticked.respond s.tickNow false) := by
  simp only [hostRead, hspace, hcsr, if_true]
  rfl

/-- A byte of spaces 1 to 7 is outside the register space. -/
theorem readableRange_one_iff : readableRange a 1 = true ↔
    spaceOf a ≠ 0 ∧ spaceOf a ≤ 7 ∧ offsetOf a < spaceSize (spaceOf a) := by
  simp only [readableRange, decide_eq_true_eq]
  omega

theorem hostRead_byte (h : readableRange a 1 = true) :
    hostRead a .byte s =
      (s.readByte a).elim (.fault .readUnwritten) fun b => .next (s.respond (b.setWidth 32) false) := by
  obtain ⟨hspace, hhigh, hoff⟩ := readableRange_one_iff.mp h
  unfold hostRead
  rw [if_neg hspace, if_pos ⟨rfl, hhigh, hoff⟩]
  cases s.readByte a <;> rfl

end Reads

section Accesses
variable {x : HostAccess} {s t : State}

theorem hostRead_forbidden (hw : x.write = false) (h : ¬Allowed x s) :
    hostRead x.addr x.size s = .next s.hostReadFault := by
  unfold hostRead
  split
  next hspace =>
    rw [allowed_register_iff hspace] at h
    split
    next c hsize hcsr => exact absurd ⟨hsize, by rw [hcsr]; rfl⟩ h
    next => rfl
  next hspace =>
    rw [allowed_byte_iff hspace, hw] at h
    exact if_neg fun ⟨hsize, hhigh, hoff⟩ => h ⟨hsize, hhigh, hoff, Bool.noConfusion⟩

theorem hostWrite_forbidden (h : ¬Allowed x s) : hostWrite x.addr x.size x.data s = .next s.hostFault := by
  unfold hostWrite
  split
  next hspace =>
    rw [allowed_register_iff hspace] at h
    split
    next c hsize hcsr => exact absurd ⟨hsize, by rw [hcsr]; rfl⟩ h
    next => rfl
  next hspace =>
    rw [allowed_byte_iff hspace] at h
    exact if_neg fun ⟨hsize, hbuffer, hoff, hfree⟩ => h ⟨hsize, by omega, hoff, fun _ => ⟨hbuffer, hfree⟩⟩

/-- An access without `HERR` that does not set `HFLT`. -/
def NoHostFault (s t : State) : Prop := t.port.herr = false ∧ t.csr.status.hflt ≤ s.csr.status.hflt

theorem hostRead_allowed (h : Allowed x s) (ht : hostRead x.addr x.size s = .next t) : NoHostFault s t := by
  unfold hostRead at ht
  split at ht
  next hspace =>
    rw [allowed_register_iff hspace] at h
    obtain ⟨hsize, hmapped⟩ := h
    obtain ⟨c, hcsr⟩ := Option.isSome_iff_exists.mp hmapped
    rw [hsize, hcsr] at ht
    cases ht
    refine ⟨rfl, ?_⟩
    split <;> exact le_refl _
  next hspace =>
    rw [allowed_byte_iff hspace] at h
    obtain ⟨hsize, hhigh, hoff, _⟩ := h
    rw [if_pos ⟨hsize, hhigh, hoff⟩] at ht
    split at ht <;> cases ht
    exact ⟨rfl, le_refl _⟩

theorem writeCsr_hflt_le (w : Word) (c : Csrs) (r : Csr) : (writeCsr w c r).status.hflt ≤ c.status.hflt := by
  rw [writeCsr_status]
  split
  · exact Bool.and_le_left _ _
  · exact le_refl _

theorem hostWrite_allowed (hw : x.write = true) (h : Allowed x s) (ht : hostWrite x.addr x.size x.data s = .next t) :
    NoHostFault s t := by
  unfold hostWrite at ht
  split at ht
  next hspace =>
    rw [allowed_register_iff hspace] at h
    obtain ⟨hsize, hmapped⟩ := h
    obtain ⟨c, hcsr⟩ := Option.isSome_iff_exists.mp hmapped
    rw [hsize, hcsr] at ht
    cases ht
    exact ⟨rfl, writeCsr_hflt_le _ _ _⟩
  next hspace =>
    rw [allowed_byte_iff hspace] at h
    obtain ⟨hsize, _, hoff, hfree⟩ := h
    obtain ⟨hbuffer, hfree⟩ := hfree hw
    rw [if_pos ⟨hsize, hbuffer, hoff, hfree⟩] at ht
    cases ht
    exact ⟨rfl, le_refl _⟩

/-- A write of `CMD` is no host fault, whatever becomes of the word. -/
theorem onCmdWrite_noHostFault {w : Word} (hr : Runs (onCmdWrite w s) t) : NoHostFault s t := by
  simp only [onCmdWrite] at hr
  split at hr
  · cases hr; exact ⟨rfl, le_refl _⟩
  next hidle =>
    split at hr
    · rcases exec_idle (Bool.eq_false_iff.mpr hidle) hr with ⟨code, rfl⟩ | rfl <;> exact ⟨rfl, le_refl _⟩
    · cases hr; exact ⟨rfl, le_refl _⟩
    · cases hr; exact ⟨rfl, le_refl _⟩

end Accesses

/-! ## A step that is an access -/

section Steps
variable {s t : State} {x : HostAccess} {rest : List HostEvent}

theorem step_access (hhost : s.env.host = .access x :: rest) (hcmd : isCmdWrite x (s.popHost rest) = false) :
    step s = hostAccess x (s.popHost rest) := by
  simp only [step, turn, hhost, hcmd, Bool.false_eq_true, if_false]
  cases hostAccess x (s.popHost rest) <;> rfl

theorem step_read (hrst : s.port.rstN = true) (hhost : s.env.host = .access x :: rest) (hw : x.write = false) :
    step s = hostRead x.addr x.size (s.popHost rest) := by
  rw [step_access hhost (by simp [isCmdWrite, hw])]
  simp [hostAccess, hrst, hw]

theorem step_write (hrst : s.port.rstN = true) (hhost : s.env.host = .access x :: rest) (hw : x.write = true)
    (hcmd : ¬WritesRegister x .cmd) : step s = hostWrite x.addr x.size x.data (s.popHost rest) := by
  rw [step_access hhost (Bool.eq_false_iff.mpr fun h => hcmd (isCmdWrite_writesRegister h))]
  simp [hostAccess, hrst, hw]

/-- A write of `CMD` runs what `onCmdWrite` answers. -/
theorem runs_of_cmdWrite (hhost : s.env.host = .access x :: rest) (hcmd : isCmdWrite x (s.popHost rest) = true)
    (h : step s = .next t) : Runs (onCmdWrite x.data (s.popHost rest)) t := by
  simp only [step, turn, hhost, hcmd, if_true] at h
  generalize onCmdWrite x.data (s.popHost rest) = r at h ⊢
  obtain ⟨u, _ | i⟩ := r
  · exact Host.Outcome.next.inj h
  · exact h

/-- A write of `CMD` is allowed. -/
theorem WritesRegister.allowed {r : Csr} (h : WritesRegister x r) : Allowed x s := by
  rw [allowed_register_iff h.space, h.offset]
  exact ⟨h.size, rfl⟩

theorem step_forbidden (hrst : s.port.rstN = true) (hhost : s.env.host = .access x :: rest) (h : ¬Allowed x s) :
    step s = .next (if x.write then (s.popHost rest).hostFault else (s.popHost rest).hostReadFault) := by
  have hpop : ¬Allowed x (s.popHost rest) := h
  cases hw : x.write with
  | false => rw [step_read hrst hhost hw, hostRead_forbidden hw hpop]; rfl
  | true => rw [step_write hrst hhost hw fun hcmd => h hcmd.allowed, hostWrite_forbidden hpop]; rfl

theorem step_allowed (hrst : s.port.rstN = true) (hhost : s.env.host = .access x :: rest) (h : Allowed x s)
    (hstep : step s = .next t) : NoHostFault s t := by
  have hpop : Allowed x (s.popHost rest) := h
  cases hw : x.write with
  | false => exact hostRead_allowed (s := s.popHost rest) hpop (step_read hrst hhost hw ▸ hstep)
  | true =>
    cases hcmd : isCmdWrite x (s.popHost rest) with
    | true => exact onCmdWrite_noHostFault (s := s.popHost rest) (runs_of_cmdWrite hhost hcmd hstep)
    | false =>
      rw [step_access hhost hcmd] at hstep
      simp only [hostAccess, State.popHost_port, hrst, hw, Bool.true_eq_false, if_false, if_true] at hstep
      exact hostWrite_allowed (s := s.popHost rest) hw hpop hstep

end Steps

/-! ## The statements of reads and faults -/

theorem readCsr_popHost (s : State) (rest : List HostEvent) (c : Csr) : readCsr (s.popHost rest) c = readCsr s c := by
  cases c <;> rfl

/-- Settles O53: one equation of `hostRead` for each kind of read. -/
theorem hostReadsHaveNoSideEffects : Obligations.HostReadsHaveNoSideEffects := by
  intro s rest a hrst
  refine ⟨fun c hhost hmap hc => ?register, fun hhost => ?now, fun b hhost hrange hb => ?byte,
    fun hhost hrange hnone => ?unwritten⟩
  case register =>
    obtain ⟨hspace, hcsr⟩ := spaceOf_of_mem_csrMap hmap
    rw [step_read hrst hhost rfl, hostRead_register _ hspace hcsr hc, readCsr_popHost]
    rfl
  case now =>
    rw [step_read hrst hhost rfl, hostRead_now _ rfl rfl]
    rfl
  case byte =>
    have hb : (s.popHost rest).readByte a = some b := hb
    rw [step_read hrst hhost rfl, hostRead_byte _ hrange, hb]
    rfl
  case unwritten =>
    have hnone : (s.popHost rest).readByte a = none := hnone
    rw [step_read hrst hhost rfl, hostRead_byte _ hrange, hnone]
    rfl

/-- The sizes of the spaces, as the table of 20_memory.md R41 lists them. -/
theorem spaceSize_eq_getD (n : Nat) : spaceSize n = [0, 64, 4096, 1024, 256, 32, 512, 28].getD n 0 := by
  match n with
  | 0 | 1 | 2 | 3 | 4 | 5 | 6 | 7 => rfl
  | n + 8 => simp [spaceSize]

theorem writeBlocked_iff {space : Nat} {s : State} :
    writeBlocked space s = true ↔ s.engine.busy = true ∨ (s.sess.state ≠ .idle ∧ space ≠ 4) := by
  simp [writeBlocked, State.sact]

theorem size_byte_iff (z : HSize) : z = .byte ↔ ¬z = .word := by cases z <;> decide

theorem space_le_of_offset_lt {space off : Nat} (h : off < spaceSize space) : space ≤ 7 := by
  unfold spaceSize at h
  split at h <;> omega

/-- The accesses that are not allowed, one by one. -/
theorem not_allowed_iff {x : HostAccess} {s : State} :
    ¬Allowed x s ↔
      if spaceOf x.addr = 0 then x.size = .byte ∨ offsetOf x.addr ∉ csrMap.map Prod.fst
      else x.size = .word ∨ spaceSize (spaceOf x.addr) ≤ offsetOf x.addr ∨
        (x.write = true ∧ (6 ≤ spaceOf x.addr ∨ writeBlocked (spaceOf x.addr) s = true)) := by
  unfold Allowed
  split
  · rw [csrAt_isSome_iff, size_byte_iff, not_and_or]
  · have hspace := space_le_of_offset_lt (space := spaceOf x.addr) (off := offsetOf x.addr)
    rw [size_byte_iff]
    grind

/-- Settles O56: the statement's list of forbidden accesses is `¬Allowed`. -/
theorem forbiddenAccessesAreHostFaults : Obligations.ForbiddenAccessesAreHostFaults := by
  intro s x rest hrst hhost
  dsimp only
  have hbad := not_allowed_iff (x := x) (s := s)
  simp only [spaceSize_eq_getD, writeBlocked_iff] at hbad
  refine ⟨fun h => ?_, fun h t ht => ?_⟩
  · rw [step_forbidden hrst hhost (hbad.mpr h)]
    cases x.write with
    | false => exact ⟨0, fun _ => rfl, rfl⟩
    | true => exact ⟨s.port.hrdata, Bool.noConfusion, rfl⟩
  · exact step_allowed hrst hhost (not_not.mp fun hna => h (hbad.mp hna)) ht

/-! ## What a register reads as after a write -/

/-- A register's value depends on the CSRs, the session, `busy` and the clock alone. -/
theorem readCsr_congr {s t : State} (hcsr : t.csr = s.csr) (hsess : t.sess = s.sess)
    (hbusy : t.engine.busy = s.engine.busy) (hnow : t.env.now = s.env.now) (c : Csr) : readCsr t c = readCsr s c := by
  cases c <;> simp only [readCsr, State.statusWord, State.sact, hcsr, hsess, hbusy, hnow]

section
variable (w : Word) (c : Csrs) (r : Csr)

/-! What a host write of a register stores (20_memory.md R46). -/

@[simp] theorem writeCsr_cmd : (writeCsr w c r).cmd = if r = .cmd then w else c.cmd := by cases r <;> rfl
@[simp] theorem writeCsr_arg0 : (writeCsr w c r).args.a0 = if r = .arg0 then w else c.args.a0 := by cases r <;> rfl
@[simp] theorem writeCsr_arg1 : (writeCsr w c r).args.a1 = if r = .arg1 then w else c.args.a1 := by cases r <;> rfl
@[simp] theorem writeCsr_arg2 : (writeCsr w c r).args.a2 = if r = .arg2 then w else c.args.a2 := by cases r <;> rfl
@[simp] theorem writeCsr_arg3 : (writeCsr w c r).args.a3 = if r = .arg3 then w else c.args.a3 := by cases r <;> rfl
@[simp] theorem writeCsr_ien : (writeCsr w c r).ien = if r = .ien then w &&& ienMask else c.ien := by cases r <;> rfl
@[simp] theorem writeCsr_meterId : (writeCsr w c r).meterId = if r = .meterId then w else c.meterId := by
  cases r <;> rfl
@[simp] theorem writeCsr_freq : (writeCsr w c r).freq = if r = .freq then w else c.freq := by cases r <;> rfl
@[simp] theorem writeCsr_ack : (writeCsr w c r).budgets.ack = if r = .tAck then w else c.budgets.ack := by
  cases r <;> rfl
@[simp] theorem writeCsr_data : (writeCsr w c r).budgets.data = if r = .tData then w else c.budgets.data := by
  cases r <;> rfl
@[simp] theorem writeCsr_preamble :
    (writeCsr w c r).budgets.preamble = if r = .tPreamble then w else c.budgets.preamble := by
  cases r <;> rfl
@[simp] theorem writeCsr_pace : (writeCsr w c r).budgets.pace = if r = .tPace then w else c.budgets.pace := by
  cases r <;> rfl
@[simp] theorem writeCsr_guardTime :
    (writeCsr w c r).budgets.guardTime = if r = .tGuard then w else c.budgets.guardTime := by
  cases r <;> rfl
@[simp] theorem writeCsr_txStream :
    (writeCsr w c r).budgets.txStream = if r = .tTxStream then w else c.budgets.txStream := by
  cases r <;> rfl
@[simp] theorem writeCsr_txDrain :
    (writeCsr w c r).budgets.txDrain = if r = .tTxDrain then w else c.budgets.txDrain := by
  cases r <;> rfl
@[simp] theorem writeCsr_frameSize :
    (writeCsr w c r).frameSize = if r = .frameSize then w.extractLsb' 0 12 else c.frameSize := by
  cases r <;> rfl

end

/-- `s` with its CSRs as a host write of `w` to the register `c` leaves them. -/
def State.writtenCsr (s : State) (w : Word) (c : Csr) : State := { s with csr := writeCsr w s.csr c }

/-- A write of one register leaves what the others read as. -/
theorem readCsr_writtenCsr_of_ne {r c : Csr} (h : r ≠ c) (s : State) (w : Word) :
    readCsr (s.writtenCsr w c) r = readCsr s r := by
  have hne := h.symm
  cases r
  case status =>
    simp only [State.writtenCsr, readCsr, State.statusWord, writeCsr_status, if_neg hne]
    rfl
  all_goals simp [State.writtenCsr, readCsr, hne]

/-- The bits of `STATUS`, one by one. -/
theorem statusWord_getLsbD (s : State) {n : Nat} (hn : n < 32) :
    s.statusWord.getLsbD n =
      if n < 10 then [s.engine.busy, s.csr.status.done, s.csr.status.err, s.sact, s.csr.status.sok, s.csr.status.sfail,
        s.csr.status.pub, s.csr.status.chip, s.csr.status.conf, s.csr.status.hflt].getD n false
      else if 16 ≤ n ∧ n < 24 then (errNumber s.csr.status.errcode).getLsbD (n - 16)
      else false := by
  simp only [State.statusWord, BitVec.getLsbD_append]
  interval_cases n <;> simp [bit]

/-- `ERRCODE`'s bits are cleared with `ERR`, and no others. -/
theorem errcodeMask_getLsbD (clear : Bool) {n : Nat} (hn : n < 32) :
    (if clear then 0xFF00FFFF else 0xFFFFFFFF : Word).getLsbD n = !(clear && decide (16 ≤ n ∧ n < 24)) := by
  have hmask : ∀ n < 32, (0xFF00FFFF : Word).getLsbD n = !decide (16 ≤ n ∧ n < 24) := by decide
  have hones : ∀ n < 32, (0xFFFFFFFF : Word).getLsbD n = true := by decide
  cases clear
  · exact hones n hn
  · exact hmask n hn

/-- A write of `STATUS` clears the W1C bits written as 1, and `ERRCODE` with `ERR` (10_state.md R21). -/
theorem statusWord_written (s : State) (w : Word) :
    (s.writtenCsr w .status).statusWord =
      s.statusWord &&& ~~~(w &&& 0x00000276) &&& (if w.getLsbD 2 then 0xFF00FFFF else 0xFFFFFFFF) := by
  refine BitVec.eq_of_getLsbD_eq fun n hn => ?_
  have hsources : (0x00000276 : Word).getLsbD n = decide (n ∈ [1, 2, 4, 5, 6, 9]) := ienMask_getLsbD n hn
  rw [BitVec.getLsbD_and, BitVec.getLsbD_and, BitVec.getLsbD_not, BitVec.getLsbD_and, hsources,
    errcodeMask_getLsbD _ hn, statusWord_getLsbD _ hn, statusWord_getLsbD _ hn]
  by_cases hlow : n < 10
  · interval_cases n <;> simp [State.writtenCsr, writeCsr, clearStatus, State.sact]
  · have hnone : n ∉ [1, 2, 4, 5, 6, 9] := by simp; omega
    simp only [hlow, hn, hnone, if_false, State.writtenCsr, writeCsr, clearStatus]
    by_cases hcode : 16 ≤ n ∧ n < 24
    · cases w.getLsbD 2 <;> simp [hcode, errNumber]
    · simp [hcode]

/-- `FRAME_SIZE` has bits 11:0 (10_state.md R29). -/
theorem frameSize_field (w : Word) : (w.extractLsb' 0 12).setWidth 32 = w &&& 0x00000FFF := by
  refine BitVec.eq_of_toNat_eq ?_
  have hmask : (0x00000FFF : Word).toNat = 2 ^ 12 - 1 := rfl
  rw [BitVec.toNat_and, hmask, Nat.and_two_pow_sub_one_eq_mod, BitVec.toNat_setWidth, BitVec.extractLsb'_toNat,
    Nat.shiftRight_zero]
  omega

/-- What the written register reads as: the bits that can be written take the word (20_memory.md R46). -/
theorem readCsr_writtenCsr_self (s : State) (w : Word) {c : Csr} (hc : c ≠ .cmd) :
    readCsr (s.writtenCsr w c) c =
      if c = .status then
        readCsr s c &&& ~~~(w &&& 0x00000276) &&& (if w.getLsbD 2 then 0xFF00FFFF else 0xFFFFFFFF)
      else if c = .ien then w &&& 0x00000276
      else if c = .frameSize then w &&& 0x00000FFF
      else if c ∈ [.arg0, .arg1, .arg2, .arg3, .meterId, .freq, .tAck, .tData, .tPreamble, .tPace, .tGuard, .tTxStream,
          .tTxDrain] then w
      else readCsr s c := by
  cases c
  case cmd => contradiction
  case status => exact statusWord_written s w
  case frameSize => exact frameSize_field w
  all_goals rfl

/-! ## The statement of writes -/

theorem hostWrite_register {a : HostAddr} {c : Csr} (s : State) (w : Word) (hspace : spaceOf a = 0)
    (hcsr : csrAt (offsetOf a) = some c) :
    hostWrite a .word w s = .next ((s.writtenCsr w c).respond s.port.hrdata false) := by
  simp only [hostWrite, hspace, hcsr, if_true]
  rfl

theorem hostWrite_byte {a : HostAddr} {s : State} (w : Word) (ha : writableRange a 1 = true)
    (hfree : writeBlocked (spaceOf a) s = false) :
    hostWrite a .byte w s = .next ((s.writeBytes a [w.extractLsb' 0 8]).respond s.port.hrdata false) := by
  obtain ⟨hspace, hbuffer, hoff⟩ := writableRange_one_iff.mp ha
  unfold hostWrite
  rw [if_neg (by omega), if_pos ⟨rfl, hbuffer, hoff, hfree⟩]

theorem stored_write (m : Memory) (a : Nat) (bs : List Byte) : Stored m (m.write a bs) a bs := by
  refine ⟨fun i hi => ?_, fun x hx => ?_⟩
  · rw [Memory.read_write, if_pos (by omega), Nat.add_sub_cancel_left]
  · rw [Memory.read_write, if_neg (by omega)]

theorem lowByte_setWidth (b : Byte) : (b.setWidth 32).extractLsb' 0 8 = b := by
  refine BitVec.eq_of_toNat_eq ?_
  rw [BitVec.extractLsb'_toNat, BitVec.toNat_setWidth, Nat.shiftRight_zero]
  omega

/-- Settles O55: `hostWrite_register` with what each register then reads as, and `hostWrite_byte`. -/
theorem hostWritesTouchOneRegisterOrByte : Obligations.HostWritesTouchOneRegisterOrByte := by
  refine ⟨fun s rest a w c hrst hhost hmap hc => ?register, fun s rest a b hrst hhost ha hidle hsession => ?byte⟩
  case register =>
    obtain ⟨hspace, hcsr⟩ := spaceOf_of_mem_csrMap hmap
    have hcmd : ¬WritesRegister { addr := a, size := .word, write := true, data := w } .cmd := fun h =>
      hc (Option.some.inj (hcsr.symm.trans h.offset))
    have hstep := (step_write hrst hhost rfl hcmd).trans (hostWrite_register _ _ hspace hcsr)
    refine ⟨_, hstep, rfl, rfl, rfl, rfl, rfl, rfl, fun r => ?_⟩
    refine (readCsr_congr (s := s.writtenCsr w c) rfl rfl rfl rfl r).trans ?_
    split
    next hne => exact readCsr_writtenCsr_of_ne hne s w
    next heq =>
      obtain rfl : r = c := not_not.mp heq
      exact readCsr_writtenCsr_self s w hc
  case byte =>
    have hcmd : ¬WritesRegister { addr := a, size := .byte, write := true, data := b.setWidth 32 } .cmd := fun h => by
      cases h.size
    have hfree : writeBlocked (spaceOf a) (s.popHost rest) = false := Bool.eq_false_iff.mpr fun hblocked => by
      rcases writeBlocked_iff.mp hblocked with hbusy | ⟨hactive, hspace⟩
      · rw [State.popHost_engine, hidle] at hbusy; cases hbusy
      · exact hsession.elim hactive hspace
    refine ⟨_, (step_write hrst hhost rfl hcmd).trans (hostWrite_byte _ ha hfree), rfl, ?_⟩
    rw [State.respond_mem, State.writeBytes_mem, lowByte_setWidth]
    exact stored_write _ _ _

end Sys2Proof.Machine

/-! PROOFS. How many bytes the codec's functions give: the request and its frame, and a decode's destination
(43_framer.md R106 to R109, 44_decoder.md R113, R120). -/

namespace Sys2Proof.Machine

/-! ## Requests and frames -/

theorem dataBits_length (b : Byte) : (dataBits b).length = 8 := by simp [dataBits]

/-- Twelve bits for each byte but the last, which has no stop bits (43_framer.md R107). -/
theorem framedBits_length (bytes : List Byte) : (framedBits bytes).length = 12 * bytes.length - 3 := by
  induction bytes with
  | nil => rfl
  | cons b rest ih =>
    cases rest with
    | nil => simp [framedBits, dataBits_length]
    | cons c rest =>
      simp only [framedBits, List.length_append, List.length_cons, List.length_nil, dataBits_length] at ih ⊢
      omega

theorem packBits_length (bits : List Bool) : (packBits bits).length = bits.length / 8 := by
  induction bits using packBits.induct with
  | case1 b7 b6 b5 b4 b3 b2 b1 b0 rest ih =>
    simp only [packBits, List.length_cons, ih]
    omega
  | case2 bits hshort =>
    have hlt : bits.length < 8 := by
      match bits, hshort with
      | [], _ | [_], _ | [_, _], _ | [_, _, _], _ | [_, _, _, _], _ | [_, _, _, _, _], _ | [_, _, _, _, _, _], _
      | [_, _, _, _, _, _, _], _ => simp
      | _ :: _ :: _ :: _ :: _ :: _ :: _ :: _ :: _, hshort => exact absurd rfl (hshort _ _ _ _ _ _ _ _ _)
    simp [packBits, Nat.div_eq_of_lt hlt]

/-- `m(n)` is the length of the framed payload (43_framer.md R108). -/
theorem encodeFrame_length (payload : List Byte) : (encodeFrame payload).length = encodedLength payload.length := by
  simp only [encodeFrame, List.length_append, packBits_length, padBits, framedBits_length, List.length_replicate,
    List.length_cons, List.length_nil, encodedLength]
  omega

theorem payloadBody_length (template : Vector Byte 19) (year : Byte) (serial : BitVec 24) :
    (payloadBody template.toList year serial).length = 17 := by
  simp [payloadBody]

theorem payloadOfMeter_length (p : Params) (meterId : Word) : (payloadOfMeter p meterId).length = 19 := by
  simp only [payloadOfMeter, buildPayload, List.length_append, payloadBody_length, List.length_cons, List.length_nil]

theorem buildFrame_length {payload : List Byte} (p : Params) (h : payload.length = 19) :
    (buildFrame p payload).length = 39 := by
  simp only [buildFrame, List.length_append, Vector.length_toList, encodeFrame_length, h, encodedLength]

/-! ## A decode's destination -/

theorem logicalBit_dst_length (lvl : Bool) (d : Decoder) : (logicalBit lvl d).dst.length = d.dst.length := by
  simp only [logicalBit]
  split_ifs <;> simp

theorem logicalBits_dst_length (k : Nat) (lvl : Bool) (d : Decoder) :
    (logicalBits k lvl d).dst.length = d.dst.length := by
  induction k generalizing d with
  | zero => rfl
  | succ k ih =>
    simp only [logicalBits]
    split
    · exact logicalBit_dst_length lvl d
    · rw [ih, logicalBit_dst_length]

theorem flushRun_dst_length (d : Decoder) : (flushRun d).dst.length = d.dst.length := by
  rw [flushRun, logicalBits_dst_length]

theorem takeSample_dst_length (d : Decoder) (x : Bool) : (takeSample d x).dst.length = d.dst.length := by
  simp only [takeSample]
  split_ifs
  · rfl
  · rfl
  · exact flushRun_dst_length d
  · exact flushRun_dst_length d

theorem foldl_takeSample_dst_length (xs : List Bool) (d : Decoder) :
    (xs.foldl takeSample d).dst.length = d.dst.length := by
  induction xs generalizing d with
  | nil => rfl
  | cons x xs ih => rw [List.foldl_cons, ih, takeSample_dst_length]

theorem decoderStart_dst_length (first : Bool) (cap : Nat) : (decoderStart first cap).dst.length = cap :=
  List.length_replicate

/-- A decode fills its destination's capacity, whatever it decodes (44_decoder.md R120). -/
theorem decodeSamples_dst_length (src : List Byte) (cap : Nat) : (decodeSamples src cap).dst.length = cap := by
  simp only [decodeSamples, decodeRun]
  split
  · exact decoderStart_dst_length false cap
  · split
    · rw [foldl_takeSample_dst_length, decoderStart_dst_length]
    · rw [flushRun_dst_length, foldl_takeSample_dst_length, decoderStart_dst_length]

end Sys2Proof.Machine

/-! PROOFS. What a block step keeps of the buffers and the session, and at which faults it can stop (20_memory.md R48,
R49, 45_read_sequencer.md R135, R136, R141 to R144).

A program is followed once, along its constructors: what holds of each of its last effects, and where a fault of the
memory is possible. The rules for that say more than those of `Prog.AllEnds`: they hand on a branch's condition and the
number of bytes read, from which the bounds of the buffers follow. `TICK` is followed state by state. -/

namespace Sys2Proof.Machine

/-! ## Buffers that only gain bytes -/

/-- `m'` has a value wherever `m` has one, and is in canonical form if `m` is. -/
structure Memory.Extends (m m' : Memory) : Prop where
  wf : m.wf → m'.wf
  read : ∀ x, (m.read x).isSome = true → (m'.read x).isSome = true

theorem Memory.Extends.refl (m : Memory) : m.Extends m := ⟨id, fun _ => id⟩

theorem Memory.Extends.trans {m n k : Memory} (hmn : m.Extends n) (hnk : n.Extends k) : m.Extends k :=
  ⟨fun h => hnk.wf (hmn.wf h), fun x h => hnk.read x (hmn.read x h)⟩

/-- After a write every byte of its range has a value. -/
theorem Memory.read_write_isSome (m : Memory) {a x : Nat} {bs : List Byte} (hlo : a ≤ x) (hhi : x < a + bs.length) :
    ((m.write a bs).read x).isSome = true := by
  have hlt : x - a < bs.length := by omega
  rw [Memory.read_write, if_pos ⟨hlo, hhi⟩, List.getElem?_eq_getElem hlt, Option.isSome_some]

theorem Memory.extends_write (m : Memory) {a : HostAddr} {bs : List Byte} (h : writableRange a bs.length = true) :
    m.Extends (m.write a.toNat bs) where
  wf hm := Memory.wf_write hm a.toNat bs (bufferAddr_of_writableRange h)
  read x hx := by
    by_cases hin : a.toNat ≤ x ∧ x < a.toNat + bs.length
    · exact m.read_write_isSome hin.1 hin.2
    · rw [Memory.read_write, if_neg hin]; exact hx

/-- `t` has the session of `s`, and its buffers have gained bytes at most. -/
structure BufferUpdate (s t : State) : Prop where
  sess : t.sess = s.sess
  mem : s.mem.Extends t.mem

namespace BufferUpdate

variable {s t u : State}

theorem refl (s : State) : BufferUpdate s s := ⟨rfl, .refl _⟩

/-- Updates of the registers alone. -/
theorem of_same (hsess : t.sess = s.sess) (hmem : t.mem = s.mem) : BufferUpdate s t := ⟨hsess, hmem ▸ .refl _⟩

theorem trans (hst : BufferUpdate s t) (htu : BufferUpdate t u) : BufferUpdate s u :=
  ⟨htu.sess.trans hst.sess, hst.mem.trans htu.mem⟩

theorem setResult0 {w : Word} (h : BufferUpdate s t) : BufferUpdate s (t.setResult0 w) := ⟨h.sess, h.mem⟩

theorem setResult1 {w : Word} (h : BufferUpdate s t) : BufferUpdate s (t.setResult1 w) := ⟨h.sess, h.mem⟩

theorem mapReading {f : Reading → Reading} (h : BufferUpdate s t) : BufferUpdate s (t.mapReading f) := ⟨h.sess, h.mem⟩

theorem configured {w : BitVec 24} (h : BufferUpdate s t) : BufferUpdate s (configured w t) := ⟨h.sess, h.mem⟩

theorem writeBytes {a : HostAddr} {bs : List Byte} (h : BufferUpdate s t) (ha : writableRange a bs.length = true) :
    BufferUpdate s (t.writeBytes a bs) := ⟨h.sess, h.mem.trans (t.mem.extends_write ha)⟩

theorem probeFlags (r : ProbeResult) (s : State) : BufferUpdate s (probeFlags r s) := by
  refine .of_same (probeFlags_sess r s) ?_
  unfold Machine.probeFlags
  split <;> rfl

theorem sentchkResults (bs : List Byte) (s : State) : BufferUpdate s (sentchkResults bs s) := by
  unfold Machine.sentchkResults
  split
  · exact .setResult1 <| .setResult0 <| .refl s
  · exact .setResult1 <| .setResult0 <| .refl s

theorem writeRequest {payload : List Byte} (hlen : payload.length = 19) (s : State) :
    BufferUpdate s (writeRequest payload s) := by
  refine ((refl s).writeBytes ?_).writeBytes ?_
  · rw [hlen]; decide
  · rw [buildFrame_length _ hlen]; decide

end BufferUpdate

/-! ## Following a program -/

/-- Whatever it is answered, the program's last effects satisfy `E`, and it stops at a fault of the memory only if `M`
holds. -/
def Prog.Ensures (E : (State → State) → Prop) (M : Prop) : Prog → Prop
  | .done fx => E fx
  | .stop f => f = .brokenProgress ∨ M
  | .bus _ k => ∀ ins, (k ins).Ensures E M
  | .clock k => ∀ now, (k now).Ensures E M
  | .level k => ∀ l, (k l).Ensures E M
  | .csr _ k => ∀ w, (k w).Ensures E M
  | .again _ => True

theorem Prog.Ensures.ends {E : (State → State) → Prop} {M : Prop} {p : Prog} {fx : State → State}
    (h : p.Ensures E M) (hends : p.Ends fx) : E fx := by
  induction hends with
  | done fx => exact h
  | bus _ _ _ ins _ ih => exact ih (h ins)
  | clock _ _ t _ ih => exact ih (h t)
  | level _ _ l _ ih => exact ih (h l)
  | csr _ _ _ w _ ih => exact ih (h w)

theorem Prog.Ensures.resume {E : (State → State) → Prop} {M : Prop} {p q : Prog} {rs : List Reply}
    (h : p.Ensures E M) (hq : p.resume rs = some q) : q.Ensures E M := by
  induction rs generalizing p with
  | nil => simp only [Prog.resume, Option.some.injEq] at hq; exact hq ▸ h
  | cons r rs ih =>
    cases p <;> cases r <;> simp only [Prog.resume, reduceCtorEq] at hq
    case bus.bytes out k ins => exact ih (h ins) hq
    case clock.time k now => exact ih (h now) hq
    case level.level k l => exact ih (h l) hq
    case csr.word f k w => exact ih (h w) hq

theorem Prog.Ensures.drive_fault {E : (State → State) → Prop} {M : Prop} {p : Prog} {b : Bool} {s : State} {f : Fault}
    (h : p.Ensures E M) (hf : p.drive b s = .fault f) : f = .brokenProgress ∨ M := by
  induction p generalizing b s with
  | done fx => cases hf
  | stop g => cases hf; exact h
  | bus out k ih =>
    cases b with
    | false => cases hf
    | true => exact ih _ (h _) hf
  | clock k ih => exact ih _ (h _) hf
  | level k ih => exact ih _ (h _) hf
  | csr g k ih => exact ih _ (h _) hf
  | again n => cases hf

namespace Prog.Ensures

variable {E : (State → State) → Prop} {M : Prop}

theorem ite {c : Prop} [Decidable c] {p q : Prog} (hp : c → p.Ensures E M) (hq : ¬c → q.Ensures E M) :
    (if c then p else q).Ensures E M := by
  split
  · exact hp ‹_›
  · exact hq ‹_›

theorem broken : (Prog.stop .brokenProgress).Ensures E M := .inl rfl

/-- A range that can be read, or a fault of the memory. -/
theorem readRange {s : State} {a : HostAddr} {n : Nat} {k : List Byte → Prog}
    (hread : readableRange a n = true ∧ (s.readBytes a n).isSome = true ∨ M)
    (h : ∀ bs, bs.length = n → (k bs).Ensures E M) : (readRange s a n k).Ensures E M := by
  unfold Machine.readRange
  split
  · split
    next hbytes => exact h _ (State.readBytes_length hbytes)
    next hnone => exact .inr (hread.resolve_left fun hsome => by rw [hnone] at hsome; cases hsome.2)
  next hrange => exact .inr (hread.resolve_left fun hsome => hrange hsome.1)

theorem guardWrite {a : HostAddr} {n : Nat} {k : Prog} (hrange : writableRange a n = true ∨ M)
    (h : writableRange a n = true → k.Ensures E M) : (guardWrite a n k).Ensures E M :=
  .ite h fun hbad => .inr (hrange.resolve_left hbad)

theorem readReg {p : Params} {a : ChipAddr} {k : Byte → Prog} (h : ∀ v, (k v).Ensures E M) :
    (readReg p a k).Ensures E M := by
  intro ins
  change (secondByte ins k).Ensures E M
  unfold secondByte
  split
  · exact h _
  · exact broken

theorem readBurst {p : Params} {a : ChipAddr} {n : Nat} {k : List Byte → Prog}
    (h : ∀ bs, bs.length = n → (k bs).Ensures E M) : (readBurst p a n k).Ensures E M :=
  fun ins => .ite (fun hlen => h _ (by rw [List.length_drop]; omega)) fun _ => broken

theorem writeReg {p : Params} {a : ChipAddr} {v : Byte} {k : Prog} (h : k.Ensures E M) :
    (writeReg p a v k).Ensures E M := fun _ => h

theorem writeBurst {p : Params} {a : ChipAddr} {data : List Byte} {k : Prog} (h : k.Ensures E M) :
    (writeBurst p a data k).Ensures E M := fun _ => h

theorem strobe {p : Params} {c : Strobe} {k : Prog} (h : k.Ensures E M) : (strobe p c k).Ensures E M := fun _ => h

theorem applySeq {p : Params} {l : List (ChipAddr × Byte)} {k : Prog} (h : k.Ensures E M) :
    (applySeq p l k).Ensures E M := by
  induction l with
  | nil => exact h
  | cons _ _ ih => exact writeReg ih

theorem resetSeq {p : Params} {k : Prog} (h : k.Ensures E M) : (resetSeq p k).Ensures E M :=
  fun _ => strobe <| strobe <| strobe h

theorem probeSeq {p : Params} {k : ProbeResult → Prog} (h : ∀ r, (k r).Ensures E M) :
    (probeSeq p k).Ensures E M := by
  have from_ (left att : Nat) : (probeFrom p left att k).Ensures E M := by
    induction left generalizing att with
    | zero => exact readReg fun _ => readReg fun _ => h _
    | succ left ih => exact readReg fun _ => readReg fun _ => .ite (fun _ => resetSeq (ih _)) fun _ => h _
  exact from_ 2 1

theorem configureSeq {p : Params} {hz : Word} {k : BitVec 24 → Prog} (h : ∀ w, (k w).Ensures E M) :
    (configureSeq p hz k).Ensures E M :=
  applySeq <| writeReg <| writeReg <| writeReg <| writeReg <| h _

/-- Single reads of `n` registers collect `n` bytes. -/
theorem readRegs {p : Params} {n : Nat} {a : ChipAddr} {got : List Byte} {k : List Byte → Prog}
    (h : ∀ bs, bs.length = got.length + n → (k bs).Ensures E M) : (readRegs p n a got k).Ensures E M := by
  induction n generalizing a got with
  | zero => exact h _ rfl
  | succ n ih =>
    refine readReg fun v => ih fun bs hlen => h bs ?_
    rw [hlen, List.length_append, List.length_singleton, Nat.add_right_comm, Nat.add_assoc]

end Prog.Ensures

/-! ## What the last effects keep -/

/-- The buffers are in canonical form and the session's counts fit what is in them. -/
structure BlockOk (s : State) : Prop where
  wf : s.mem.wf
  session : SessionInv s

/-- The effect keeps `BlockOk` on every state with the buffers and the session of `s`. -/
def KeepsBlock (s : State) (fx : State → State) : Prop := ∀ u, u.mem = s.mem → u.sess = s.sess → BlockOk (fx u)

/-- `BlockOk` is about buffers and session alone. -/
theorem BlockOk.of_same {s t : State} (h : BlockOk s) (hmem : t.mem = s.mem) (hsess : t.sess = s.sess) :
    BlockOk t := by
  obtain ⟨hwf, hsession⟩ := h
  refine ⟨by rw [hmem]; exact hwf, ?_⟩
  unfold SessionInv
  rw [hmem, hsess]
  exact hsession

/-- A session keeps its counts when the buffers gain bytes. -/
theorem BlockOk.of_bufferUpdate {s t : State} (h : BlockOk s) (hst : BufferUpdate s t) : BlockOk t := by
  obtain ⟨hwf, hsend, hwait, hrecv⟩ := h
  refine ⟨hst.mem.wf hwf, ?_⟩
  unfold SessionInv
  rw [hst.sess]
  refine ⟨fun hstate => ?_, hwait, fun hstate => ?_⟩
  · obtain ⟨hlen, hsent, hbytes⟩ := hsend hstate
    exact ⟨hlen, hsent, fun i hi => hst.mem.read _ (hbytes i hi)⟩
  · obtain ⟨hle, hbytes⟩ := hrecv hstate
    exact ⟨hle, fun i hi => hst.mem.read _ (hbytes i hi)⟩

theorem KeepsBlock.of_bufferUpdate {s : State} {fx : State → State} (h : BlockOk s) (hfx : ∀ u, BufferUpdate u (fx u)) :
    KeepsBlock s fx :=
  fun u hmem hsess => (h.of_same hmem hsess).of_bufferUpdate (hfx u)

/-- The session states that `SessionInv` says something about. -/
def countingStates : List SessState := [.streamRequest, .dataWaitSync2, .dataFetch2, .decode]

theorem SessionInv.of_quiet {s : State} (h : s.sess.state ∉ countingStates) : SessionInv s := by
  simp only [countingStates, List.mem_cons, List.not_mem_nil, or_false, not_or] at h
  obtain ⟨hsend, hwait, hfetch, hdecode⟩ := h
  exact ⟨fun hs => absurd hs hsend, fun hs => absurd hs hwait, fun hs => (hs.elim hfetch hdecode).elim⟩

/-! ## Ranges of written bytes -/

/-- The bytes of a writable range stand at consecutive addresses, each writable. -/
theorem writableRange_byte {a : HostAddr} {n i : Nat} (h : writableRange a n = true) (hi : i < n) :
    (a + BitVec.ofNat 16 i).toNat = a.toNat + i ∧ writableRange (a + BitVec.ofNat 16 i) 1 = true := by
  have hbuf := bufferAddr_of_writableRange h i hi
  simp only [bufferAddr, decide_eq_true_eq] at hbuf
  have hle := spaceSize_le ((a.toNat + i) / 4096)
  have hto : (a + BitVec.ofNat 16 i).toNat = a.toNat + i := by
    rw [BitVec.toNat_add, BitVec.toNat_ofNat]
    omega
  refine ⟨hto, writableRange_one_iff.mpr ?_⟩
  simp only [spaceOf, offsetOf, hto]
  exact hbuf

theorem State.readBytes_isSome {s : State} {a : HostAddr} {n : Nat}
    (h : ∀ i, i < n → (s.readByte (a + BitVec.ofNat 16 i)).isSome = true) : (s.readBytes a n).isSome = true := by
  induction n with
  | zero => rfl
  | succ n ih =>
    obtain ⟨front, hfront⟩ := Option.isSome_iff_exists.mp (ih fun i hi => h i (by omega))
    obtain ⟨last, hlast⟩ := Option.isSome_iff_exists.mp (h n (by omega))
    simp only [State.readBytes, hfront, hlast, Option.isSome_some]

/-- A writable range whose bytes are all written can be read. -/
theorem State.readable_of_written {s : State} {a : HostAddr} {n : Nat} (h : writableRange a n = true)
    (hbytes : ∀ i, i < n → (s.mem.read (a.toNat + i)).isSome = true) :
    readableRange a n = true ∧ (s.readBytes a n).isSome = true := by
  refine ⟨(Bool.and_eq_true_iff.mp h).1, State.readBytes_isSome fun i hi => ?_⟩
  obtain ⟨hto, hwritable⟩ := writableRange_byte h hi
  rw [State.readByte_of_writable hwritable, hto]
  exact hbytes i hi

theorem txb_toNat : txb.toNat = 0x1000 := rfl

theorem rawb_toNat : rawb.toNat = 0x2000 := rfl

/-- Places in TXB and in RAWB. -/
theorem txb_add_toNat {x : BitVec 16} (h : x.toNat ≤ 4096) : (txb + x).toNat = 0x1000 + x.toNat := by
  rw [BitVec.toNat_add, txb_toNat]
  omega

theorem rawb_add_toNat {x : BitVec 16} (h : x.toNat ≤ 4096) : (rawb + x).toNat = 0x2000 + x.toNat := by
  rw [BitVec.toNat_add, rawb_toNat]
  omega

theorem writableRange_txb {x : BitVec 16} {n : Nat} (h : x.toNat + n ≤ 64) (hn : 0 < n) :
    writableRange (txb + x) n = true := by
  have hspace : spaceOf (txb + x) = 1 := by rw [spaceOf, txb_add_toNat (by omega)]; omega
  have hoff : offsetOf (txb + x) = x.toNat := by rw [offsetOf, txb_add_toNat (by omega)]; omega
  simp only [writableRange, readableRange, hspace, hoff, spaceSize, Bool.and_eq_true, decide_eq_true_eq]
  omega

theorem writableRange_rawb {x : BitVec 16} {n : Nat} (h : x.toNat + n ≤ 4096) (hn : 0 < n) :
    writableRange (rawb + x) n = true := by
  have hspace : spaceOf (rawb + x) = 2 := by rw [spaceOf, rawb_add_toNat (by omega)]; omega
  have hoff : offsetOf (rawb + x) = x.toNat := by rw [offsetOf, rawb_add_toNat (by omega)]; omega
  simp only [writableRange, readableRange, hspace, hoff, spaceSize, Bool.and_eq_true, decide_eq_true_eq]
  omega

theorem writableRange_rawb_start {n : Nat} (h : n ≤ 4096) : writableRange rawb n = true := by
  have hspace : spaceOf rawb = 2 := rfl
  have hoff : offsetOf rawb = 0 := rfl
  simp only [writableRange, readableRange, hspace, hoff, spaceSize, Bool.and_eq_true, decide_eq_true_eq]
  omega

/-! ## The session's counts, state by state -/

theorem BlockOk.sending {s : State} (h : BlockOk s) (hstate : s.sess.state = .streamRequest) :
    s.sess.reqLen = 39 ∧ s.sess.sent.toNat ≤ 39 ∧ ∀ i, i < 39 → (s.mem.read (0x1000 + i)).isSome = true := by
  obtain ⟨_, hsend, _, _⟩ := h
  exact hsend hstate

theorem BlockOk.waiting {s : State} (h : BlockOk s) (hstate : s.sess.state = .dataWaitSync2) : s.sess.recv = 0 := by
  obtain ⟨_, _, hwait, _⟩ := h
  exact hwait hstate

theorem BlockOk.receiving {s : State} (h : BlockOk s) (hstate : s.sess.state = .dataFetch2 ∨ s.sess.state = .decode) :
    s.sess.recv.toNat ≤ s.sess.target.toNat ∧
      ∀ i, i < s.sess.recv.toNat → (s.mem.read (0x2000 + i)).isSome = true := by
  obtain ⟨_, _, _, hrecv⟩ := h
  exact hrecv hstate

theorem SessionInv.of_sending {s : State} (hstate : s.sess.state = .streamRequest) (hlen : s.sess.reqLen = 39)
    (hsent : s.sess.sent.toNat ≤ 39) (hbytes : ∀ i, i < 39 → (s.mem.read (0x1000 + i)).isSome = true) :
    SessionInv s := by
  simp only [SessionInv, hstate, reduceCtorEq, or_self, false_implies, true_implies, and_true]
  exact ⟨hlen, hsent, hbytes⟩

theorem SessionInv.of_waiting {s : State} (hstate : s.sess.state = .dataWaitSync2) (hrecv : s.sess.recv = 0) :
    SessionInv s := by
  simp only [SessionInv, hstate, reduceCtorEq, or_self, false_implies, true_implies, and_true, true_and]
  exact hrecv

theorem SessionInv.of_receiving {s : State} (hstate : s.sess.state = .dataFetch2 ∨ s.sess.state = .decode)
    (hle : s.sess.recv.toNat ≤ s.sess.target.toNat)
    (hbytes : ∀ i, i < s.sess.recv.toNat → (s.mem.read (0x2000 + i)).isSome = true) : SessionInv s := by
  refine ⟨fun hs => ?_, fun hs => ?_, fun _ => ⟨hle, hbytes⟩⟩ <;> simp [hs] at hstate

/-! ## A tick's end -/

/-- A tick's program from `s`: its last effects keep `BlockOk`, and a fault of the memory needs a target that does not
fit RAWB. -/
abbrev Prog.KeepsTick (s : State) (p : Prog) : Prop := p.Ensures (KeepsBlock s) (4096 < s.sess.target.toNat)

/-- The effect keeps the canonical form of the buffers of `s`. -/
def KeepsForm (s : State) (fx : State → State) : Prop := ∀ u, u.mem = s.mem → u.sess = s.sess → (fx u).mem.wf

section Ends
variable {s : State}

/-- For effects that leave the buffers. -/
theorem BlockOk.form (h : BlockOk s) (u : State) (hmem : u.mem = s.mem) (_ : u.sess = s.sess) : u.mem.wf := by
  rw [hmem]; exact h.wf

theorem tickStay_keeps {fx : State → State} (h : KeepsBlock s fx) : (tickStay fx).KeepsTick s :=
  fun u hmem hsess => (h u hmem hsess).of_same rfl rfl

theorem tickStay_id_keeps (h : BlockOk s) : (tickStay id).KeepsTick s :=
  tickStay_keeps fun _ hmem hsess => h.of_same hmem hsess

theorem tickGoto_keeps {next : SessState} {now : Word} {fx : State → State}
    (h : KeepsBlock s fun u => (fx u).goto next now) : (tickGoto next now fx).KeepsTick s :=
  fun u hmem hsess => (h u hmem hsess).of_same rfl rfl

theorem tickGoto_quiet {next : SessState} {now : Word} {fx : State → State} (hnext : next ∉ countingStates)
    (hfx : KeepsForm s fx) : (tickGoto next now fx).KeepsTick s :=
  tickGoto_keeps fun u hmem hsess => ⟨hfx u hmem hsess, .of_quiet hnext⟩

theorem tickFail_quiet {code : FailCode} {now : Word} {fx : State → State} (hfx : KeepsForm s fx) :
    (tickFail code now fx).KeepsTick s :=
  fun u hmem hsess => BlockOk.of_same (s := (fx u).failSession code now)
    ⟨hfx u hmem hsess, .of_quiet (by decide : SessState.fail ∉ countingStates)⟩ rfl rfl

end Ends

/-! ## The preamble -/

section Actions
variable {s : State}

theorem actStartPreamble_keeps (h : BlockOk s) (now : Word) : (actStartPreamble s now).KeepsTick s :=
  .strobe <| .applySeq <| .writeBurst <| .strobe <| tickGoto_quiet (by decide) h.form

theorem paceTopUp_keeps (h : BlockOk s) (hs : s.sess.state = .streamPreamble) (now : Word) :
    (paceTopUp s now).KeepsTick s := by
  have stepEnd : (paceStepEnd s now).KeepsTick s :=
    .ite (fun _ => tickGoto_quiet (by decide) h.form) fun _ =>
      tickStay_keeps fun u hmem hsess => ⟨h.form u hmem hsess, .of_quiet (by
        rw [State.mapSess_sess, hsess, hs]; decide)⟩
  exact .readReg fun _ => .ite (fun _ => .writeBurst stepEnd) fun _ => stepEnd

theorem actStreamPreamble_keeps (h : BlockOk s) (hs : s.sess.state = .streamPreamble) (now : Word) :
    (actStreamPreamble s now).KeepsTick s :=
  .ite (fun _ => tickStay_id_keeps h) fun _ => .readReg fun _ =>
    .ite (fun _ => paceTopUp_keeps h hs now) fun _ => .strobe (paceTopUp_keeps h hs now)

theorem actGuardBeforeReq_keeps (h : BlockOk s) (now : Word) : (actGuardBeforeReq s now).KeepsTick s :=
  .ite (fun _ => tickGoto_quiet (by decide) h.form) fun _ => tickStay_id_keeps h

/-! ## The request -/

/-- The request's 39 bytes stand in TXB once it is built (45_read_sequencer.md R135). -/
theorem writeRequest_read_txb {payload : List Byte} (hlen : payload.length = 19) (u : State) {i : Nat} (hi : i < 39) :
    ((writeRequest payload u).mem.read (0x1000 + i)).isSome = true := by
  rw [writeRequest, State.writeBytes_mem]
  refine Memory.read_write_isSome _ (by rw [txb_toNat]; omega) ?_
  rw [buildFrame_length _ hlen, txb_toNat]
  omega

theorem actStartRequest_keeps (h : BlockOk s) (now : Word) : (actStartRequest s now).KeepsTick s := by
  have hlen := payloadOfMeter_length s.params s.sess.meterId
  refine .applySeq <| tickGoto_keeps fun u hmem hsess => ⟨?_, ?_⟩
  · exact (BufferUpdate.writeRequest hlen u).mem.wf (h.form u hmem hsess)
  · exact .of_sending rfl rfl (by decide : (0 : BitVec 16).toNat ≤ 39) fun i hi => writeRequest_read_txb hlen u hi

theorem streamRequestEnd_keeps (h : BlockOk s) (hs : s.sess.state = .streamRequest) (now : Word) {sent : BitVec 16}
    (hsent : sent.toNat ≤ 39) : (streamRequestEnd s now sent).KeepsTick s := by
  obtain ⟨hlen, _, hbytes⟩ := h.sending hs
  have stay : KeepsBlock s fun t => t.mapSess fun x => { x with sent := sent } := fun u hmem hsess =>
    ⟨h.form u hmem hsess, .of_sending (by rw [State.mapSess_sess, hsess, hs]) (by rw [State.mapSess_sess, hsess, hlen])
      hsent (by rw [State.mapSess_mem, hmem]; exact hbytes)⟩
  exact .ite (fun _ => tickGoto_quiet (by decide) h.form) fun _ =>
    .ite (fun _ => tickFail_quiet h.form) fun _ => tickStay_keeps stay

/-- The bytes a tick sends are among the request's, so TXB holds them (45_read_sequencer.md R136). -/
theorem actStreamRequest_keeps (h : BlockOk s) (hs : s.sess.state = .streamRequest) (now : Word) :
    (actStreamRequest s now).KeepsTick s := by
  obtain ⟨hlen, hsent, hbytes⟩ := h.sending hs
  refine .readReg fun r => .ite
    (fun _ => .strobe <| .strobe <| streamRequestEnd_keeps h hs now (by decide)) fun _ => .ite (fun hpos => ?_)
    fun _ => streamRequestEnd_keeps h hs now hsent
  generalize hchunk : requestChunk s (r &&& s.params.cntMask).toNat = chunk at hpos ⊢
  have hfit : s.sess.sent.toNat + chunk ≤ 39 := by
    have hle : chunk ≤ s.sess.reqLen.toNat - s.sess.sent.toNat := hchunk ▸ Nat.min_le_right _ _
    have hreq : s.sess.reqLen.toNat = 39 := by rw [hlen]; rfl
    omega
  refine .readRange (.inl <| State.readable_of_written (writableRange_txb (by omega) hpos) fun i hi => ?_) fun _ _ =>
    .writeBurst <| streamRequestEnd_keeps h hs now ?_
  · rw [txb_add_toNat (by omega), Nat.add_assoc]
    exact hbytes _ (by omega)
  · rw [BitVec.toNat_add, BitVec.toNat_ofNat]
    omega

theorem actWaitTxFinish_keeps (h : BlockOk s) (now : Word) : (actWaitTxFinish s now).KeepsTick s :=
  .readReg fun _ => .ite (fun _ => .applySeq <| tickGoto_quiet (by decide) h.form) fun _ =>
    .ite (fun _ => .applySeq <| tickFail_quiet h.form) fun _ => tickStay_id_keeps h

/-! ## The acknowledgement -/

theorem actDataSetupStage1_keeps (h : BlockOk s) (now : Word) : (actDataSetupStage1 s now).KeepsTick s :=
  .applySeq <| .strobe <| .strobe <| tickGoto_quiet (by decide) h.form

theorem actDataWaitSync1_keeps (h : BlockOk s) (now : Word) : (actDataWaitSync1 s now).KeepsTick s :=
  fun _ => .ite (fun _ => tickGoto_quiet (by decide) h.form) fun _ =>
    .ite (fun _ => tickGoto_quiet (by decide) h.form) fun _ => tickStay_id_keeps h

theorem actDataFetch1_keeps (h : BlockOk s) (now : Word) : (actDataFetch1 s now).KeepsTick s :=
  .readReg fun _ => .ite (fun _ => .readBurst fun _ _ => tickGoto_quiet (by decide) h.form) fun _ =>
    tickGoto_quiet (by decide) h.form

/-! ## The reply -/

theorem actDataSetupStage2_keeps (h : BlockOk s) (now : Word) : (actDataSetupStage2 s now).KeepsTick s :=
  .applySeq <| .strobe <| .strobe <| tickGoto_keeps fun u hmem hsess => ⟨h.form u hmem hsess, .of_waiting rfl rfl⟩

theorem actDataWaitSync2_keeps (h : BlockOk s) (hs : s.sess.state = .dataWaitSync2) (now : Word) :
    (actDataWaitSync2 s now).KeepsTick s := by
  have hrecv : s.sess.recv = 0 := h.waiting hs
  refine fun _ => .ite
    (fun _ => .readReg fun rssi => .readReg fun lqi => tickGoto_keeps fun u hmem hsess => ?_) fun _ =>
    .ite (fun _ => tickFail_quiet h.form) fun _ => tickStay_id_keeps h
  have hnone : u.sess.recv.toNat = 0 := by rw [hsess, hrecv]; rfl
  exact ⟨h.form u hmem hsess, .of_receiving (.inl rfl) (hnone.trans_le (Nat.zero_le _)) fun i hi =>
    absurd (hnone ▸ hi) (Nat.not_lt_zero i)⟩

/-- The count of received bytes once `got` has come. -/
def received (s : State) (got : List Byte) : BitVec 16 := s.sess.recv + BitVec.ofNat 16 got.length

/-- What a DataFetch2 tick stores of the bytes that have come (45_read_sequencer.md R143). -/
def storeReply (s : State) (got : List Byte) (t : State) : State :=
  if got.isEmpty then t
  else (t.writeBytes (rawb + s.sess.recv) got).mapSess fun x => { x with recv := received s got }

theorem dataFetch2End_eq (s : State) (now : Word) (got : List Byte) :
    dataFetch2End s now got =
      if received s got = s.sess.target then
        applySeq s.params s.params.defaultSeq <| readRange (storeReply s got s) rawb (received s got).toNat fun raw =>
          if hasSentinel raw then tickGoto .decode now (storeReply s got)
          else tickFail .noSentinel now (storeReply s got)
      else if expired s.sess.t0 s.sess.budgets.data now then
        applySeq s.params s.params.defaultSeq <| tickFail .fetch2Timeout now (storeReply s got)
      else tickStay (storeReply s got) := rfl

/-- The bytes `got` fit the target and, if there are any, RAWB. -/
structure FitsReply (s : State) (got : List Byte) : Prop where
  target : s.sess.recv.toNat + got.length ≤ s.sess.target.toNat
  rawb : got = [] ∨ s.sess.recv.toNat + got.length ≤ 4096

theorem FitsReply.received_toNat {got : List Byte} (h : FitsReply s got) :
    (received s got).toNat = s.sess.recv.toNat + got.length := by
  have hle := h.target
  rw [received, BitVec.toNat_add, BitVec.toNat_ofNat]
  omega

theorem storeReply_sess (got : List Byte) {u : State} (hsess : u.sess = s.sess) :
    (storeReply s got u).sess = { s.sess with recv := received s got } := by
  unfold storeReply
  split
  next hnil =>
    rw [List.isEmpty_iff.mp hnil, received, List.length_nil, hsess]
    simp
  next => rw [State.mapSess_sess, State.writeBytes_sess, hsess]

theorem storeReply_mem {got : List Byte} (h : FitsReply s got) (u : State) :
    u.mem.Extends (storeReply s got u).mem ∧
      ∀ i, s.sess.recv.toNat ≤ i → i < s.sess.recv.toNat + got.length →
        ((storeReply s got u).mem.read (0x2000 + i)).isSome = true := by
  unfold storeReply
  split
  next hnil =>
    rw [List.isEmpty_iff.mp hnil]
    exact ⟨.refl _, fun i hlo hhi => absurd hhi (Nat.not_lt.mpr hlo)⟩
  next hsome =>
    have hne : got ≠ [] := fun hnil => hsome (by rw [hnil]; rfl)
    have hfit := h.rawb.resolve_left hne
    have haddr := rawb_add_toNat (x := s.sess.recv) (by omega)
    rw [State.mapSess_mem, State.writeBytes_mem]
    refine ⟨u.mem.extends_write (writableRange_rawb hfit (List.length_pos_of_ne_nil hne)), fun i hlo hhi => ?_⟩
    exact u.mem.read_write_isSome (by omega) (by omega)

/-- After the bytes of a tick have been stored, RAWB holds all that counts as received. -/
theorem storeReply_holds (h : BlockOk s) (hs : s.sess.state = .dataFetch2) {got : List Byte} (hfit : FitsReply s got)
    {u : State} (hmem : u.mem = s.mem) {i : Nat} (hi : i < (received s got).toNat) :
    ((storeReply s got u).mem.read (0x2000 + i)).isSome = true := by
  obtain ⟨hextends, hnew⟩ := storeReply_mem hfit u
  obtain ⟨_, hbytes⟩ := h.receiving (.inl hs)
  rw [hfit.received_toNat] at hi
  by_cases hold : i < s.sess.recv.toNat
  · exact hextends.read _ (by rw [hmem]; exact hbytes i hold)
  · exact hnew i (by omega) hi

theorem dataFetch2End_keeps (h : BlockOk s) (hs : s.sess.state = .dataFetch2) (now : Word) {got : List Byte}
    (hfit : FitsReply s got) : (dataFetch2End s now got).KeepsTick s := by
  have hle : (received s got).toNat ≤ s.sess.target.toNat := hfit.received_toNat ▸ hfit.target
  have form : KeepsForm s (storeReply s got) := fun u hmem hsess => (storeReply_mem hfit u).1.wf (h.form u hmem hsess)
  have stay : KeepsBlock s (storeReply s got) := fun u hmem hsess => by
    have hsess' := storeReply_sess got hsess
    refine ⟨form u hmem hsess, .of_receiving (.inl (by rw [hsess', hs])) (by rw [hsess']; exact hle) ?_⟩
    rw [hsess']
    exact fun i hi => storeReply_holds h hs hfit hmem hi
  have decode : KeepsBlock s fun u => (storeReply s got u).goto .decode now := fun u hmem hsess => by
    have hsess' := storeReply_sess got hsess
    refine ⟨form u hmem hsess, .of_receiving (.inr rfl) ?_ ?_⟩
    · rw [State.goto_sess, hsess']; exact hle
    · rw [State.goto_sess, hsess']
      exact fun i hi => storeReply_holds h hs hfit hmem hi
  have readable : readableRange rawb (received s got).toNat = true ∧
      ((storeReply s got s).readBytes rawb (received s got).toNat).isSome = true ∨ 4096 < s.sess.target.toNat := by
    refine (le_or_gt s.sess.target.toNat 4096).imp_left fun htarget => ?_
    exact State.readable_of_written (writableRange_rawb_start (hle.trans htarget)) fun i hi =>
      storeReply_holds h hs hfit rfl hi
  rw [dataFetch2End_eq]
  exact .ite (fun _ => .applySeq <| .readRange readable fun _ _ =>
      .ite (fun _ => tickGoto_keeps decode) fun _ => tickFail_quiet form) fun _ =>
    .ite (fun _ => .applySeq <| tickFail_quiet form) fun _ => tickStay_keeps stay

theorem actDataFetch2_keeps (h : BlockOk s) (hs : s.sess.state = .dataFetch2) (now : Word) :
    (actDataFetch2 s now).KeepsTick s := by
  obtain ⟨hrecv, _⟩ := h.receiving (.inl hs)
  refine .readReg fun r => .ite (fun hpos => .readBurst fun got hlen => ?_) fun _ =>
    dataFetch2End_keeps h hs now ⟨hrecv, .inl rfl⟩
  generalize hchunk : fetchChunk s (r &&& s.params.cntMask).toNat = chunk at hpos hlen ⊢
  have hle : chunk ≤ s.sess.target.toNat - s.sess.recv.toNat := hchunk ▸ Nat.min_le_right _ _
  refine .ite (fun hroom => dataFetch2End_keeps h hs now ⟨by omega, .inr (by rw [hlen]; exact hroom)⟩) fun hfull => ?_
  have hfull : ¬s.sess.recv.toNat + chunk ≤ 4096 := hfull
  exact .inr (by omega)

theorem actDecode_keeps (h : BlockOk s) (hs : s.sess.state = .decode) (now : Word) : (actDecode s now).KeepsTick s := by
  obtain ⟨hle, hbytes⟩ := h.receiving (.inr hs)
  have form (raw : List Byte) (f : Session → Session) :
      KeepsForm s fun t => (t.writeBytes decb (decodeSamples raw decbSize).dst).mapSess f := fun u hmem hsess => by
    refine (u.mem.extends_write ?_).wf (h.form u hmem hsess)
    rw [decodeSamples_dst_length]
    decide
  refine .readRange ((le_or_gt s.sess.target.toNat 4096).imp_left fun htarget =>
    State.readable_of_written (writableRange_rawb_start (hle.trans htarget)) hbytes) fun raw _ => ?_
  exact .ite (fun _ => tickGoto_quiet (by decide) (form raw _)) fun _ =>
    .ite (fun _ => tickFail_quiet (form raw _)) fun _ => tickFail_quiet (form raw _)

/-! ## The session's end -/

theorem actPublish_keeps (h : BlockOk s) (now : Word) : (actPublish s now).KeepsTick s :=
  tickGoto_quiet (by decide) h.form

theorem actFail_keeps (h : BlockOk s) (now : Word) : (actFail s now).KeepsTick s :=
  .strobe <| .strobe <| .strobe <| .applySeq <| tickGoto_quiet (by decide) h.form

/-- Every action of R131 keeps what the session counts. -/
theorem sessionAction_keeps (h : BlockOk s) (now : Word) : (sessionAction s now).KeepsTick s := by
  unfold sessionAction
  cases hs : s.sess.state
  case idle => exact tickStay_id_keeps h
  case startPreamble => exact actStartPreamble_keeps h now
  case streamPreamble => exact actStreamPreamble_keeps h hs now
  case guardBeforeReq => exact actGuardBeforeReq_keeps h now
  case startRequest => exact actStartRequest_keeps h now
  case streamRequest => exact actStreamRequest_keeps h hs now
  case waitTxFinish => exact actWaitTxFinish_keeps h now
  case dataSetupStage1 => exact actDataSetupStage1_keeps h now
  case dataWaitSync1 => exact actDataWaitSync1_keeps h now
  case dataFetch1 => exact actDataFetch1_keeps h now
  case dataSetupStage2 => exact actDataSetupStage2_keeps h now
  case dataWaitSync2 => exact actDataWaitSync2_keeps h hs now
  case dataFetch2 => exact actDataFetch2_keeps h hs now
  case decode => exact actDecode_keeps h hs now
  case publish => exact actPublish_keeps h now
  case fail => exact actFail_keeps h now

theorem tickProg_keeps (h : BlockOk s) : (tickProg s).KeepsTick s :=
  .ite (fun _ => .of_bufferUpdate h fun u => .setResult1 <| .setResult0 <| .refl u) fun _ now =>
    sessionAction_keeps h now

end Actions

end Sys2Proof.Machine

/-! PROOFS. A session never reads unwritten memory, and every step keeps the invariant (20_memory.md R47 to R49,
60_exceptions.md R152, 70_reset_and_hazards.md R170). -/

namespace Sys2Proof.Machine

/-! ## The faults of a tick -/

/-- The faults of a running command are those its program can stop at, and that of an engine whose progress fits no
command. -/
theorem exec_fault {i : Instr} {s : State} {f : Fault} {E : (State → State) → Prop} {M : Prop}
    (hprog : (progOf i s).Ensures E M) (h : exec i s = .fault f) : f = .brokenProgress ∨ M := by
  rw [exec_eq] at h
  unfold runCommand at h
  split at h
  · split at h
    next hresume => exact (hprog.resume hresume).drive_fault h
    next => cases h; exact .inl rfl
  · cases h

theorem Inv.blockOk {s : State} (h : Inv s) : BlockOk s := by
  obtain ⟨hwf, _, _, _, hsession, _⟩ := h
  exact ⟨hwf, hsession⟩

/-- Settles O50: by `tickProg_keeps`, a fault of the memory needs a target that does not fit RAWB. -/
theorem aSessionNeverReadsUnwrittenMemory : Obligations.ASessionNeverReadsUnwrittenMemory := by
  intro s hinv htarget
  have noFault (f : Fault) (hf : f ≠ .brokenProgress) : exec .tick s ≠ .fault f := fun h =>
    (exec_fault (i := .tick) (tickProg_keeps hinv.blockOk) h).elim hf (Nat.not_lt.mpr htarget)
  exact ⟨noFault _ (by decide), noFault _ (by decide)⟩

/-! ## The other commands -/

/-- Every last effect of the program leaves the session and only adds bytes to the buffers. -/
abbrev Prog.AddsBytes (p : Prog) : Prop := p.Ensures (fun fx => ∀ u, BufferUpdate u (fx u)) True

theorem strobeProg_addsBytes (s : State) : (strobeProg s).AddsBytes := by
  unfold strobeProg
  split
  · refine .strobe fun u => ?_
    dsimp only
    split
    · exact .of_same rfl rfl
    · exact .refl u
  · exact .broken

theorem configureProg_addsBytes (s : State) : (configureProg s).AddsBytes :=
  .configureSeq fun _ u => .setResult0 <| .configured <| .refl u

/-- A command that is none of the session's two leaves the session and only adds bytes to the buffers. -/
theorem progOf_addsBytes {i : Instr} (hstart : i ≠ .startRead) (htick : i ≠ .tick) (s : State) :
    (progOf i s).AddsBytes := by
  have any {p : Prop} : p ∨ True := .inr trivial
  cases i
  case nop => exact .refl
  case wreg => exact .writeReg .refl
  case rreg => exact .readReg fun _ u => .setResult0 <| .refl u
  case rburst =>
    exact .guardWrite any fun hxb => .readBurst fun _ hlen u => .setResult0 <|
      (BufferUpdate.refl u).writeBytes (hlen ▸ hxb)
  case wburst => exact .readRange any fun _ _ => .writeBurst fun u => .setResult0 <| .refl u
  case strobe => exact strobeProg_addsBytes s
  case reset => exact .resetSeq fun _ => .of_same rfl rfl
  case probe => exact .probeSeq fun r u => .setResult1 <| .setResult0 <| .probeFlags r u
  case configure => exact configureProg_addsBytes s
  case enterRx =>
    have polled {v w : Word} (u : State) : BufferUpdate u ((u.setResult0 v).setResult1 w) :=
      .setResult1 <| .setResult0 <| .refl u
    exact .strobe <| .strobe <| .readReg fun _ =>
      .ite (fun _ => polled) fun _ _ => .ite (fun _ => polled) fun _ => trivial
  case init =>
    exact .probeSeq fun r => .ite
      (fun _ _ => .configureSeq fun _ u => .setResult1 <| .setResult0 <| .configured <| .probeFlags r u)
      fun _ u => .setResult1 <| .setResult0 <| .probeFlags r u
  case diag =>
    exact .readRegs fun bs hlen u => .setResult0 <| (BufferUpdate.refl u).writeBytes (by rw [hlen]; decide)
  case rssiDbm => exact fun u => .setResult0 <| .refl u
  case freqWord => exact fun u => .setResult0 <| .refl u
  case freqHz => exact fun u => .setResult1 <| .setResult0 <| .refl u
  case crc16 => exact .readRange any fun _ _ u => .setResult1 <| .setResult0 <| .refl u
  case buildReq =>
    exact fun u => .setResult1 <| .setResult0 <| .writeRequest (payloadOfMeter_length _ _) u
  case encode =>
    exact .guardWrite any fun hdst => .readRange any fun bs hlen u => .setResult0 <|
      (BufferUpdate.refl u).writeBytes (by rw [encodeFrame_length, hlen]; exact hdst)
  case decode =>
    exact .guardWrite any fun hdst => .readRange any fun bs _ u => .setResult1 <| .setResult0 <|
      (BufferUpdate.refl u).writeBytes (by rw [decodeSamples_dst_length]; exact hdst)
  case sentchk => exact .readRange any fun bs _ u => .sentchkResults bs u
  case extract => exact .readRange any fun _ _ u => .setResult0 <| .mapReading <| .refl u
  case startRead => exact absurd rfl hstart
  case tick => exact absurd rfl htick

/-! ## A block step -/

theorem startReadProg_keeps {s : State} (h : BlockOk s) : (startReadProg s).Ensures (KeepsBlock s) False :=
  fun _ u hmem hsess => ⟨h.form u hmem hsess, .of_quiet (by decide : SessState.startPreamble ∉ countingStates)⟩

/-- The last effect of every command keeps the buffers' form and the session's counts. -/
theorem progOf_keepsBlock {i : Instr} {s : State} {fx : State → State} (h : BlockOk s) (hends : (progOf i s).Ends fx) :
    KeepsBlock s fx := by
  by_cases hstart : i = .startRead
  · subst hstart; exact (startReadProg_keeps h).ends hends
  by_cases htick : i = .tick
  · subst htick; exact (tickProg_keeps h).ends hends
  exact .of_bufferUpdate h ((progOf_addsBytes hstart htick s).ends hends)

/-- The invariant of a block out of reset. -/
theorem Inv.of_awake {t : State} (hrst : t.port.rstN = true) (hblock : BlockOk t) (hien : t.csr.ien &&& ~~~ienMask = 0)
    (hidle : t.engine.busy = false → t.engine.replies = [])
    (hrun : t.engine.busy = true →
      ∃ i, t.engine.opc = opcodeOf i ∧ (t.sess.state ≠ .idle → allowedInSession i = true)) : Inv t :=
  ⟨hblock.wf, hien, hidle, hrun, hblock.session, fun hreset => by rw [hrst] at hreset; cases hreset⟩

/-- What leaves the engine and the session, adds bytes to the buffers at most and keeps the mask of `IEN` keeps the
invariant. -/
theorem Inv.of_bufferUpdate {s t : State} (h : Inv s) (hrst : t.port.rstN = true) (hst : BufferUpdate s t)
    (hengine : t.engine = s.engine) (hien : t.csr.ien &&& ~~~ienMask = 0) : Inv t := by
  have hblock := h.blockOk
  obtain ⟨_, _, hidle, hrun, _, _⟩ := h
  refine .of_awake hrst (hblock.of_bufferUpdate hst) hien ?_ ?_
  · rw [hengine]; exact hidle
  · rw [hengine, hst.sess]; exact hrun

theorem Inv.ien {s : State} (h : Inv s) : s.csr.ien &&& ~~~ienMask = 0 := by
  obtain ⟨_, hien, _⟩ := h
  exact hien

theorem exec_busy_inv {i : Instr} {s t : State} (h : Inv s) (hrst : s.port.rstN = true) (hbusy : s.engine.busy = true)
    (hexec : exec i s = .next t) : Inv t := by
  have hblock := h.blockOk
  obtain ⟨_, hien, _, hrun, _, _⟩ := h
  rcases exec_busy_cases hbusy hexec with hmid | ⟨u, hdone⟩
  · have hrunning : t.engine.busy = true := by rw [hmid.engine]; exact hbusy
    refine .of_awake (by rw [hmid.port]; exact hrst) (hblock.of_same hmid.mem hmid.sess) (by rw [hmid.csr]; exact hien)
      (fun hidle => ?_) fun _ => ?_
    · rw [hrunning] at hidle; cases hidle
    · rw [hmid.engine, hmid.sess]; exact hrun hbusy
  · have hengine := hdone.engine
    refine .of_awake (by rw [hdone.port]; exact hrst) ?_ (by rw [hdone.hostPartKept.ien]; exact hien)
      (fun _ => by rw [hengine]) fun hrunning => ?_
    · obtain ⟨hmid, fx, hends, rfl⟩ := hdone
      exact (progOf_keepsBlock hblock hends u hmid.mem hmid.sess).of_same rfl rfl
    · rw [hengine] at hrunning; cases hrunning

/-! ## A submission -/

/-- An accepted command is one of the opcode map, and one that a session admits while a session is active. -/
theorem submit_inv {s : State} (h : Inv s) (hrst : s.port.rstN = true) (i : Instr) (c : Option ErrCode) :
    Inv (s.submit i c) := by
  have refused (code : ErrCode) : Inv (s.refuse code) := h.of_bufferUpdate hrst (.of_same rfl rfl) rfl h.ien
  unfold State.submit
  split
  · exact refused _
  next hadmitted =>
    split
    · exact refused _
    · refine .of_awake hrst (h.blockOk.of_same rfl rfl) h.ien (fun _ => rfl) fun _ => ⟨i, rfl, fun hsession => ?_⟩
      simpa [State.sact, show s.sess.state ≠ .idle from hsession] using hadmitted

theorem exec_inv {i : Instr} {s t : State} (h : Inv s) (hrst : s.port.rstN = true) (hexec : exec i s = .next t) :
    Inv t := by
  cases hbusy : s.engine.busy with
  | false =>
    rw [exec_eq, runCommand_idle hbusy, Host.Outcome.next.injEq] at hexec
    exact hexec ▸ submit_inv h hrst i _
  | true => exact exec_busy_inv h hrst hbusy hexec

theorem onCmdWrite_inv {w : Word} {s t : State} (h : Inv s) (hrst : s.port.rstN = true)
    (hr : Runs (onCmdWrite w s) t) : Inv t := by
  have stored : Inv (State.respond { s with csr := writeCsr w s.csr .cmd } s.port.hrdata false) :=
    h.of_bufferUpdate hrst (.of_same rfl rfl) rfl h.ien
  simp only [onCmdWrite] at hr
  split at hr
  · cases hr; exact stored.of_bufferUpdate hrst (.of_same rfl rfl) rfl stored.ien
  · split at hr
    · exact exec_inv stored hrst hr
    · cases hr; exact stored.of_bufferUpdate hrst (.of_same rfl rfl) rfl stored.ien
    · cases hr; exact stored.of_bufferUpdate hrst (.of_same rfl rfl) rfl stored.ien

/-! ## Host accesses -/

theorem hostRead_inv {a : HostAddr} {size : HSize} {s t : State} (h : Inv s) (hrst : s.port.rstN = true)
    (hread : hostRead a size s = .next t) : Inv t := by
  have kept {t : State} (hport : t.port.rstN = s.port.rstN) (hst : BufferUpdate s t) (hengine : t.engine = s.engine)
      (hien : t.csr.ien = s.csr.ien) : Inv t :=
    h.of_bufferUpdate (hport.trans hrst) hst hengine (hien ▸ h.ien)
  unfold hostRead at hread
  split at hread
  · split at hread <;> cases hread
    · split <;> exact kept rfl (.of_same rfl rfl) rfl rfl
    · exact kept rfl (.of_same rfl rfl) rfl rfl
  · split at hread
    · split at hread <;> cases hread
      exact kept rfl (.of_same rfl rfl) rfl rfl
    · cases hread; exact kept rfl (.of_same rfl rfl) rfl rfl

theorem writeCsr_ien_masked {w : Word} {c : Csrs} (h : c.ien &&& ~~~ienMask = 0) (r : Csr) :
    (writeCsr w c r).ien &&& ~~~ienMask = 0 := by
  rw [writeCsr_ien]
  split
  · rw [BitVec.and_assoc, BitVec.and_not_self]; exact BitVec.and_zero
  · exact h

theorem hostWrite_inv {a : HostAddr} {size : HSize} {w : Word} {s t : State} (h : Inv s) (hrst : s.port.rstN = true)
    (hwrite : hostWrite a size w s = .next t) : Inv t := by
  unfold hostWrite at hwrite
  split at hwrite
  · split at hwrite <;> cases hwrite
    · exact h.of_bufferUpdate hrst (.of_same rfl rfl) rfl (writeCsr_ien_masked h.ien _)
    · exact h.of_bufferUpdate hrst (.of_same rfl rfl) rfl h.ien
  next hspace =>
    split at hwrite <;> cases hwrite
    next hbyte =>
      obtain ⟨_, hbuffer, hoff, _⟩ := hbyte
      have hwritable : writableRange a 1 = true :=
        writableRange_one_iff.mpr ⟨Nat.one_le_iff_ne_zero.mpr hspace, hbuffer, hoff⟩
      have hstored : BufferUpdate s (s.writeBytes a [w.extractLsb' 0 8]) := .writeBytes (.refl s) hwritable
      exact h.of_bufferUpdate hrst (hstored.trans (.of_same rfl rfl)) rfl h.ien
    next => exact h.of_bufferUpdate hrst (.of_same rfl rfl) rfl h.ien

theorem hostAccess_inv {x : HostAccess} {s t : State} (h : Inv s) (haccess : hostAccess x s = .next t) : Inv t := by
  unfold hostAccess at haccess
  split at haccess
  · cases haccess; exact h
  next hawake =>
    have hrst : s.port.rstN = true := Bool.eq_true_of_not_eq_false hawake
    split at haccess
    · exact hostWrite_inv h hrst haccess
    · exact hostRead_inv h hrst haccess

/-! ## A step -/

/-- The fall of `RST_N` leaves the reset state, and its rise a block that may run. -/
theorem setRstN_inv {s : State} (h : Inv s) (level : Bool) : Inv (s.setRstN level) := by
  cases level with
  | false =>
    have hrun : s.blockReset.engine.busy ≠ true := Bool.false_ne_true
    exact ⟨⟨.nil, fun _ hc => (List.not_mem_nil hc).elim⟩, (by decide : (0 : Word) &&& ~~~ienMask = 0), fun _ => rfl,
      fun h => absurd h hrun, .of_quiet (by decide : SessState.idle ∉ countingStates), fun _ => ⟨rfl, rfl, rfl, rfl⟩⟩
  | true => exact h.of_bufferUpdate rfl (.of_same rfl rfl) rfl h.ien

theorem isCmdWrite_awake {x : HostAccess} {s : State} (h : isCmdWrite x s = true) : s.port.rstN = true := by
  simp only [isCmdWrite, Bool.and_eq_true] at h
  obtain ⟨⟨⟨⟨hrst, _⟩, _⟩, _⟩, _⟩ := h
  exact hrst

theorem blockTurn_inv {s t : State} {r : State × Option Instr} (h : Inv s) (hturn : blockTurn s = .next r)
    (hr : Runs r t) : Inv t := by
  unfold blockTurn at hturn
  split at hturn
  next hrun =>
    obtain ⟨hrst, hbusy⟩ := Bool.and_eq_true_iff.mp hrun
    split at hturn <;> cases hturn
    exact exec_busy_inv h hrst hbusy hr
  next => cases hturn; cases hr; exact h

/-- The invariant does not speak of the host's events. -/
theorem Inv.popHost {s : State} (h : Inv s) (rest : List HostEvent) : Inv (s.popHost rest) := h

theorem turn_inv {s t : State} {r : State × Option Instr} (h : Inv s) (hturn : turn s = .next r) (hr : Runs r t) :
    Inv t := by
  cases hhost : s.env.host with
  | nil =>
    simp only [turn, hhost] at hturn
    exact blockTurn_inv h hturn hr
  | cons e rest =>
    cases e <;> simp only [turn, hhost] at hturn
    case access x =>
      split at hturn
      next hcmd => cases hturn; exact onCmdWrite_inv (h.popHost rest) (isCmdWrite_awake hcmd) hr
      next =>
        split at hturn <;> cases hturn
        next haccess => cases hr; exact hostAccess_inv (h.popHost rest) haccess
    case pause => exact blockTurn_inv (h.popHost rest) hturn hr
    case wait =>
      split at hturn
      · exact blockTurn_inv h hturn hr
      · cases hturn; cases hr; exact h.popHost rest
    case tickUntil => cases hturn; cases hr; exact h.popHost _
    case untilState =>
      cases hturn; cases hr
      split
      · exact h.popHost rest
      · exact h.popHost _
    case rstN level => cases hturn; cases hr; exact setRstN_inv (h.popHost rest) level

/-- Settles O48: whose turn it is, then the command that `exec` runs. -/
theorem everyStepKeepsTheInvariant : Obligations.EveryStepKeepsTheInvariant := by
  intro s t hinv hstep
  unfold step at hstep
  split at hstep
  next hturn => exact turn_inv hinv hturn hstep
  next hturn => cases hstep; exact turn_inv hinv hturn rfl
  next => cases hstep
  next => cases hstep

end Sys2Proof.Machine

/-! PROOFS. The command word: the decoder and the encoder by the two fields of the word (30_encoding.md R57, R59, R60). -/

namespace Sys2Proof.Machine

/-! ## The opcode map -/

theorem instrOfOpcode_opcodeOf (i : Instr) : instrOfOpcode (opcodeOf i) = some i := by
  cases i <;> rfl

theorem instrOfOpcode_eq_some_iff {opc : Byte} {i : Instr} : instrOfOpcode opc = some i ↔ opc = opcodeOf i :=
  ⟨instrOfOpcode_some, fun h => h ▸ instrOfOpcode_opcodeOf i⟩

/-- The opcode column of 30_encoding.md R59. -/
def legalOpcodes : List Nat := [0x00, 0x01, 0x02, 0x03, 0x04, 0x05, 0x10, 0x11, 0x12, 0x13, 0x14, 0x15, 0x16, 0x17, 0x18,
  0x20, 0x21, 0x22, 0x23, 0x24, 0x25, 0x30, 0x31]

theorem opcodeOf_mem_legalOpcodes (i : Instr) : (opcodeOf i).toNat ∈ legalOpcodes := by
  cases i <;> decide

theorem instrOfOpcode_eq_none_iff {opc : Byte} : instrOfOpcode opc = none ↔ opc.toNat ∉ legalOpcodes := by
  constructor
  · intro hnone
    unfold instrOfOpcode at hnone
    split at hnone
    case h_24 => simp_all [legalOpcodes]
    all_goals cases hnone
  · intro hout
    cases hopc : instrOfOpcode opc with
    | none => rfl
    | some i => exact absurd (instrOfOpcode_some hopc ▸ opcodeOf_mem_legalOpcodes i) hout

/-! ## The fields of a word -/

theorem opcField_toNat (w : Word) : (opcField w).toNat = w.toNat % 256 := by
  simp [opcField]

theorem reservedField_eq_zero_iff (w : Word) : reservedField w = 0 ↔ w.toNat < 256 := by
  simp only [reservedField, ← BitVec.toNat_inj, BitVec.extractLsb'_toNat, Nat.shiftRight_eq_div_pow]
  have hw := w.isLt
  simp
  omega

theorem encode_toNat (i : Instr) : (encode i).toNat = (opcodeOf i).toNat :=
  (BitVec.toNat_append (0#24) (opcodeOf i)).trans (by simp)

/-- `OPC` names the command and the other bits are zero (30_encoding.md R57). -/
theorem eq_encode_iff {w : Word} {i : Instr} : w = encode i ↔ opcField w = opcodeOf i ∧ reservedField w = 0 := by
  rw [reservedField_eq_zero_iff, ← BitVec.toNat_inj, ← BitVec.toNat_inj, encode_toNat, opcField_toNat]
  have hopc := (opcodeOf i).isLt
  omega

/-! ## The decoder's three answers -/

theorem decode_eq_ok_iff {w : Word} {i : Instr} :
    decode w = .ok i ↔ instrOfOpcode (opcField w) = some i ∧ reservedField w = 0 := by
  unfold decode
  split
  next hnone => simp [hnone]
  next j hsome => split <;> simp_all

theorem decode_eq_illegalOpcode_iff {w : Word} :
    decode w = .error .illegalOpcode ↔ instrOfOpcode (opcField w) = none := by
  unfold decode
  split
  next hnone => simp [hnone]
  next j hsome => split <;> simp [hsome]

theorem decode_eq_reservedBits_iff {w : Word} :
    decode w = .error .reservedBits ↔ instrOfOpcode (opcField w) ≠ none ∧ reservedField w ≠ 0 := by
  unfold decode
  split
  next hnone => simp [hnone]
  next j hsome => split <;> simp_all

theorem decode_eq_ok_iff_eq_encode {w : Word} {i : Instr} : decode w = .ok i ↔ w = encode i := by
  rw [decode_eq_ok_iff, instrOfOpcode_eq_some_iff, eq_encode_iff]

/-- Settles O1: each answer by the two fields, and the fields by the word's value. -/
theorem decodeExactlyTheOpcodeMap : Obligations.DecodeExactlyTheOpcodeMap := by
  refine ⟨fun _ _ => decode_eq_ok_iff_eq_encode, fun w => ?_, fun w => ?_⟩
  · rw [decode_eq_illegalOpcode_iff, instrOfOpcode_eq_none_iff, opcField_toNat]
    rfl
  · rw [decode_eq_reservedBits_iff, Ne, instrOfOpcode_eq_none_iff, not_not, opcField_toNat, Ne,
      reservedField_eq_zero_iff, not_lt]
    rfl

theorem decode_encode (i : Instr) : decode (encode i) = .ok i := decode_eq_ok_iff_eq_encode.mpr rfl

/-- Settles O2: the legal words are their commands' encodings, and the two others are judged by their fields. -/
theorem sampleWordsDecode : Obligations.SampleWordsDecode :=
  ⟨decode_encode .rburst, decode_encode .init, decode_encode .crc16, decode_encode .encode, decode_encode .decode,
    decode_encode .tick, decode_encode .nop, decode_eq_illegalOpcode_iff.mpr rfl,
    decode_eq_reservedBits_iff.mpr ⟨by decide, by decide⟩⟩

end Sys2Proof.Machine

/-! PROOFS. The byte lists of the bus transactions (30_encoding.md R64, R65, 40_bus_access.md R75). -/

namespace Sys2Proof.Machine

theorem isStatus_eq_true_iff {a : ChipAddr} : isStatus a = true ↔ 0x30 ≤ a.toNat ∧ a.toNat ≤ 0x3D := decide_eq_true_iff

theorem singleRead_of_isStatus {p : Params} {a : ChipAddr} (h : isStatus a = true) :
    singleRead p a = [header a (p.opRead ||| p.opBurst), 0] := if_pos h

theorem singleRead_of_not_isStatus {p : Params} {a : ChipAddr} (h : ¬isStatus a = true) :
    singleRead p a = [header a p.opRead, 0] := if_neg h

/-- Settles O5: a single read by the side of the status sub-range, the strobes one by one, the other forms as defined. -/
theorem busTransactionForms : Obligations.BusTransactionForms := by
  intro p a v n data
  refine ⟨rfl, fun hout => ?_, fun hlo hhi => ?_, rfl, rfl, fun k hk => ?_⟩
  · exact singleRead_of_not_isStatus fun h => by rw [isStatus_eq_true_iff] at h; omega
  · exact singleRead_of_isStatus (isStatus_eq_true_iff.mpr ⟨hlo, hhi⟩)
  · match k, hk with
    | 0, _ | 1, _ | 2, _ | 3, _ | 4, _ | 5, _ | 6, _ => rfl

end Sys2Proof.Machine

/-! PROOFS. The framed stream bit by bit (30_encoding.md R67, 43_framer.md R107, R108).

A bit past the end of a list is taken as set, as padding is: with that reading padding changes no bit, and the packed
bytes hold the unpadded stream. -/

namespace Sys2Proof.Machine

/-! ## Packing -/

/-- Shifting bits into a byte: the last one stands lowest, and what stood there before moves up. -/
theorem foldl_shiftIn_getLsbD (bits : List Bool) (acc : Byte) {i : Nat} (hi : i < 8) :
    (bits.foldl (fun (acc : Byte) b => (acc <<< 1) ||| (BitVec.ofBool b).setWidth 8) acc).getLsbD i =
      if i < bits.length then bits.getD (bits.length - 1 - i) true else acc.getLsbD (i - bits.length) := by
  induction bits generalizing acc with
  | nil => simp
  | cons b bits ih =>
    rw [List.foldl_cons, ih, List.length_cons]
    by_cases hlt : i < bits.length
    · rw [if_pos hlt, if_pos (by omega), show bits.length + 1 - 1 - i = (bits.length - 1 - i) + 1 by omega,
        List.getD_cons_succ]
    · by_cases heq : i = bits.length
      · subst heq; simp
      · rw [if_neg hlt, if_neg (by omega), show i - bits.length = (i - (bits.length + 1)) + 1 by omega]
        simp
        omega

/-- Most significant bit first (43_framer.md R107). -/
theorem byteOfBits_getLsbD {bits : List Bool} (hlen : bits.length = 8) {k : Nat} (hk : k < 8) :
    (byteOfBits bits).getLsbD (7 - k) = bits.getD k true := by
  rw [byteOfBits, foldl_shiftIn_getLsbD bits 0 (by omega), if_pos (by omega), hlen]
  congr 1
  omega

theorem packBits_getLsbD (bits : List Bool) {k : Nat} (hk : k < 8 * (bits.length / 8)) :
    ((packBits bits).getD (k / 8) 0).getLsbD (7 - k % 8) = bits.getD k true := by
  induction bits using packBits.induct generalizing k with
  | case1 b7 b6 b5 b4 b3 b2 b1 b0 rest ih =>
    rw [packBits]
    by_cases hfirst : k < 8
    · rw [Nat.div_eq_of_lt hfirst, Nat.mod_eq_of_lt hfirst, List.getD_cons_zero, byteOfBits_getLsbD rfl hfirst]
      exact (List.getD_append [b7, b6, b5, b4, b3, b2, b1, b0] rest true k hfirst).symm
    · obtain ⟨j, rfl⟩ : ∃ j, k = j + 8 := ⟨k - 8, by omega⟩
      simp only [List.length_cons] at hk
      rw [Nat.add_div_right j (by decide), Nat.add_mod_right, List.getD_cons_succ, ih (by omega)]
      rfl
  | case2 bits hshort =>
    have hnil : (packBits bits).length = 0 := by
      rw [packBits]
      · rfl
      · exact hshort
    rw [packBits_length] at hnil
    omega

theorem padBits_getD (bits : List Bool) (k : Nat) : (padBits bits).getD k true = bits.getD k true := by
  simp only [padBits, List.getD_eq_getElem?_getD, List.getElem?_append, List.getElem?_replicate]
  split
  · rfl
  next hlen =>
    rw [List.getElem?_eq_none (Nat.le_of_not_lt hlen)]
    split <;> rfl

/-! ## The stream before padding -/

theorem dataBits_getD (b : Byte) (j : Nat) : (dataBits b).getD j true = if j < 8 then b.getLsbD j else true := by
  by_cases hj : j < 8 <;> simp [dataBits, List.getD_eq_getElem?_getD, hj]

/-- The first byte has the first twelve places, its stop bits set as the padding is if it is the last one too. -/
theorem framedBits_cons_getD (b : Byte) (rest : List Byte) (k : Nat) :
    (framedBits (b :: rest)).getD k true =
      if k < 12 then (false :: dataBits b).getD k true else (framedBits rest).getD (k - 12) true := by
  have hlen : (false :: dataBits b).length = 9 := by rw [List.length_cons, dataBits_length]
  cases rest with
  | nil =>
    split
    · rfl
    · exact List.getD_eq_default _ _ (by rw [framedBits]; omega)
  | cons c rest =>
    rw [framedBits]
    by_cases hframe : k < 9
    · rw [List.getD_append _ _ _ _ (by omega), if_pos (by omega)]
    · rw [List.getD_append_right _ _ _ _ (by omega), hlen]
      by_cases hstop : k < 12
      · rw [if_pos hstop, List.getD_eq_default _ _ (by omega : (false :: dataBits b).length ≤ k),
          List.getD_append [true, true, true] _ _ _ (by simp; omega)]
        exact List.getD_replicate true (n := 3) (by omega)
      · rw [if_neg hstop, List.getD_append_right [true, true, true] _ _ _ (by simp; omega)]
        congr 1

/-- The twelve places of one byte: its start bit, its data bits, and set bits (43_framer.md R107). -/
theorem start_dataBits_getD (b : Byte) (k : Nat) :
    (false :: dataBits b).getD k true = if k = 0 then false else if k ≤ 8 then b.getLsbD (k - 1) else true := by
  cases k with
  | zero => rfl
  | succ j =>
    rw [List.getD_cons_succ, dataBits_getD, if_neg (Nat.succ_ne_zero j)]
    rfl

theorem framedBits_getD (payload : List Byte) (k : Nat) :
    (framedBits payload).getD k true =
      if 12 * payload.length - 3 ≤ k then true
      else if k % 12 = 0 then false
      else if k % 12 ≤ 8 then (payload.getD (k / 12) 0).getLsbD (k % 12 - 1)
      else true := by
  induction payload generalizing k with
  | nil => simp [framedBits]
  | cons b rest ih =>
    rw [framedBits_cons_getD]
    split
    next hfirst =>
      rw [start_dataBits_getD, Nat.div_eq_of_lt hfirst, Nat.mod_eq_of_lt hfirst, List.getD_cons_zero, List.length_cons]
      by_cases hend : 12 * (rest.length + 1) - 3 ≤ k
      · rw [if_pos hend, if_neg (by omega), if_neg (by omega)]
      · rw [if_neg hend]
    next hlater =>
      obtain ⟨j, rfl⟩ : ∃ j, k = j + 12 := ⟨k - 12, by omega⟩
      rw [ih, Nat.add_sub_cancel, Nat.add_mod_right, Nat.add_div_right j (by decide), List.getD_cons_succ]
      have hend : 12 * (b :: rest).length - 3 ≤ j + 12 ↔ 12 * rest.length - 3 ≤ j := by
        rw [List.length_cons]
        omega
      simp only [hend]

theorem encodeFrame_getLsbD (payload : List Byte) {k : Nat} (hk : k < 8 * ((encodeFrame payload).length - 1)) :
    ((encodeFrame payload).getD (k / 8) 0).getLsbD (7 - k % 8) = (framedBits payload).getD k true := by
  simp only [encodeFrame, List.length_append, List.length_singleton, Nat.add_sub_cancel, packBits_length] at hk ⊢
  rw [List.getD_append _ _ _ _ (by rw [packBits_length]; omega), packBits_getLsbD _ hk, padBits_getD]

/-- Settles O29: the bits of the packed output are those of the framed stream, found twelve places a byte. -/
theorem framingPlacesEveryBit : Obligations.FramingPlacesEveryBit := by
  intro payload _
  refine ⟨encodeFrame_length payload, ?_, fun k hk => ?_⟩
  · simp [encodeFrame]
  · rw [encodeFrame_getLsbD payload hk, framedBits_getD]

end Sys2Proof.Machine

/-! PROOFS. A command at an idle engine, and a command of one transaction at its only block step (60_exceptions.md R152
to R156): what the bus access commands share with every other command. -/

namespace Sys2Proof.Machine

/-! ## Submission -/

theorem State.sact_eq_true_iff {s : State} : s.sact = true ↔ s.sess.state ≠ .idle := decide_eq_true_iff

/-- What a command's own checks lead to: a refusal with the code of the first that is violated, else acceptance. -/
def State.judged (s : State) (i : Instr) (checks : List (Bool × ErrCode)) : State :=
  (firstError checks).elim (s.accept i) s.refuse

@[simp] theorem State.judged_nil (s : State) (i : Instr) : s.judged i [] = s.accept i := rfl

/-- The checks after the first one matter only where the first one passes. -/
theorem State.judged_cons {s t : State} {i : Instr} {violated : Bool} {P : Prop} [Decidable P] {code : ErrCode}
    {rest : List (Bool × ErrCode)} (hP : violated = true ↔ P) (hrest : ¬P → s.judged i rest = t) :
    s.judged i ((violated, code) :: rest) = if P then s.refuse code else t := by
  unfold State.judged firstError
  split
  next hv => rw [if_pos (hP.mp hv), Option.elim_some]
  next hv =>
    have hnot : ¬P := fun hp => hv (hP.mpr hp)
    rw [if_neg hnot]
    exact hrest hnot

/-- Session exclusion comes before the command's own checks (60_exceptions.md R156). -/
theorem exec_idle_judged {i : Instr} {s t : State} {checks : List (Bool × ErrCode)} (hidle : Idle s)
    (hi : allowedInSession i = false) (hchecks : checkOf i s = firstError checks) (hjudged : s.judged i checks = t) :
    exec i s = .next (if s.sess.state ≠ .idle then s.refuse .busy else t) := by
  rw [exec_eq, runCommand_idle hidle, hchecks, ← hjudged]
  simp only [State.submit, hi, Bool.not_false, Bool.and_true, State.sact_eq_true_iff, State.judged]
  cases firstError checks <;> rfl

/-! ## What a program goes on with -/

theorem secondByte_eq {ins : List Byte} (k : Byte → Prog) (h : 2 ≤ ins.length) :
    secondByte ins k = k (ins.getD 1 0) := by
  match ins, h with
  | _ :: _ :: _, _ => rfl

theorem readRange_of_some {s : State} {a : HostAddr} {n : Nat} {bs : List Byte} {k : List Byte → Prog}
    (hrange : readableRange a n = true) (hread : s.readBytes a n = some bs) : readRange s a n k = k bs := by
  simp only [readRange, hrange, hread, if_true]

theorem readRange_of_none {s : State} {a : HostAddr} {n : Nat} {k : List Byte → Prog}
    (hrange : readableRange a n = true) (hread : s.readBytes a n = none) :
    readRange s a n k = .stop .readUnwritten := by
  simp only [readRange, hrange, hread, if_true]

/-! ## The only block step -/

@[simp] theorem Prog.resume_nil (p : Prog) : p.resume [] = some p := by cases p <;> rfl

theorem exec_fresh {i : Instr} {s : State} (h : Fresh s) : exec i s = (progOf i s).drive true s := by
  obtain ⟨hbusy, hreplies⟩ := h
  rw [exec_eq, runCommand, if_pos hbusy, hreplies, Prog.resume_nil]

/-- A command that ends after its first transaction is complete after one block step. -/
theorem exec_fresh_bus {i : Instr} {s : State} {out : List Byte} {k : List Byte → Prog} {fx : State → State}
    (h : Fresh s) (hprog : progOf i s = .bus out k) (hk : k (s.busTxn out).1 = .done fx) :
    exec i s = .next (fx (s.exchange out)).complete := by
  rw [exec_fresh h, hprog, Prog.drive, hk]
  rfl

@[simp] theorem State.exchange_csr (s : State) (out : List Byte) : (s.exchange out).csr = s.csr := rfl

/-- Completion forgets the answer. -/
@[simp] theorem State.completeWith_exchange (s : State) (out : List Byte) (c : Csrs) :
    (s.exchange out).completeWith c = (s.after out).completeWith c := rfl

end Sys2Proof.Machine

/-! PROOFS. The bus access commands (40_bus_access.md R77 to R81). -/

namespace Sys2Proof.Machine

/-! ## Operands -/

theorem not_fits_eq_true_iff {n : Nat} {w : Word} : (!fits n w) = true ↔ 2 ^ n ≤ w.toNat := by
  simp [fits]

theorem not_addr6Ok_eq_true_iff {w : Word} : (!addr6Ok w) = true ↔ 64 ≤ w.toNat := not_fits_eq_true_iff

theorem not_byteOk_eq_true_iff {w : Word} : (!byteOk w) = true ↔ 256 ≤ w.toNat := not_fits_eq_true_iff

/-- The status sub-range, for an operand whose reserved bits are 0. -/
theorem isStatus_addr6_eq_true_iff {w : Word} (hw : ¬64 ≤ w.toNat) :
    isStatus (addr6 w) = true ↔ 0x30 ≤ w.toNat ∧ w.toNat ≤ 0x3D := by
  have haddr : (addr6 w).toNat = w.toNat := by
    rw [addr6, BitVec.extractLsb'_toNat, Nat.shiftRight_zero, Nat.mod_eq_of_lt (by omega)]
  rw [isStatus_eq_true_iff, haddr]

/-- XB holds the largest burst. -/
theorem writableRange_xb {n : Nat} (h : n ≤ 256) : writableRange xb n = true := by
  have hspace : spaceOf xb = 4 := rfl
  have hoff : offsetOf xb = 0 := rfl
  simp only [writableRange, readableRange, hspace, hoff, spaceSize, Bool.and_eq_true, decide_eq_true_eq]
  omega

theorem readableRange_xb {n : Nat} (h : n ≤ 256) : readableRange xb n = true :=
  (Bool.and_eq_true_iff.mp (writableRange_xb h)).1

/-! ## Answers -/

theorem singleRead_length (p : Params) (a : ChipAddr) : (singleRead p a).length = 2 := by
  unfold singleRead; split <;> rfl

theorem burstRead_length (p : Params) (a : ChipAddr) (n : Nat) : (burstRead p a n).length = n + 1 := by
  rw [burstRead, List.length_cons, List.length_replicate]

/-! ## RBURST -/

theorem rburstProg_eq {s : State} (hn : s.engine.args.a1.toNat ≤ 256) :
    rburstProg s = readBurst s.params (addr6 s.engine.args.a0) s.engine.args.a1.toNat fun bs =>
      .done fun t => (t.writeBytes xb bs).setResult0 s.engine.args.a1 :=
  if_pos (writableRange_xb hn)

/-- Settles O11: `State.judged_cons` for each check, and one burst whose answer has the length that `readBurst` asks
for. -/
theorem rburstReadsIntoScratch : Obligations.RburstReadsIntoScratch := by
  refine ⟨decode_encode .rburst, fun s hidle => ?idle, fun s hfresh hn => ?fresh⟩
  case idle =>
    refine exec_idle_judged hidle rfl rfl <| State.judged_cons not_addr6Ok_eq_true_iff fun haddr =>
      State.judged_cons ?_ fun _ => State.judged_cons decide_eq_true_iff fun _ => rfl
    rw [Bool.and_eq_true, isStatus_addr6_eq_true_iff haddr, decide_eq_true_iff, and_assoc]
  case fresh =>
    intro out
    have hlen : (s.busTxn out).1.length = s.engine.args.a1.toNat + 1 :=
      (s.busTxn_length out).trans (burstRead_length _ _ _)
    refine ⟨_, exec_fresh_bus hfresh (rburstProg_eq hn) (if_pos hlen), ?_, ?_, stored_write _ _ _⟩
    · rw [State.complete_setResult0]
      rfl
    · rw [List.length_drop, hlen, Nat.add_sub_cancel]

/-! ## WBURST -/

/-- Settles O12: `State.judged_cons` for each check; then XB is read, and the burst is sent or the read faults. -/
theorem wburstSendsScratch : Obligations.WburstSendsScratch := by
  refine ⟨decode_encode .wburst, fun s hidle => ?idle, fun s bs hfresh hn hread => ?written,
    fun s hfresh hn hread => ?unwritten⟩
  case idle =>
    exact exec_idle_judged hidle rfl rfl <| State.judged_cons not_addr6Ok_eq_true_iff fun haddr =>
      State.judged_cons (isStatus_addr6_eq_true_iff haddr) fun _ => State.judged_cons decide_eq_true_iff fun _ => rfl
  case written =>
    rw [exec_fresh_bus (i := .wburst) hfresh (readRange_of_some (readableRange_xb hn) hread) rfl,
      State.complete_setResult0, State.completeWith_exchange, State.exchange_csr]
    rfl
  case unwritten =>
    have hprog : progOf .wburst s = .stop .readUnwritten := readRange_of_none (readableRange_xb hn) hread
    rw [exec_fresh hfresh, hprog, Prog.drive]

/-! ## WREG and RREG -/

/-- Settles O9: `State.judged_cons` for each check, and one transaction with no effect of its own. -/
theorem wregWritesOneRegister : Obligations.WregWritesOneRegister := by
  refine ⟨decode_encode .wreg, fun s hidle => ?idle, fun s hfresh => ?fresh⟩
  case idle =>
    refine exec_idle_judged hidle rfl rfl <| State.judged_cons ?_ fun hok =>
      State.judged_cons (isStatus_addr6_eq_true_iff fun h => hok (.inl h)) fun _ => rfl
    rw [Bool.or_eq_true, not_addr6Ok_eq_true_iff, not_byteOk_eq_true_iff]
  case fresh =>
    rw [exec_fresh_bus hfresh rfl rfl, State.complete_eq]
    rfl

/-- Settles O10: one check, and one transaction whose answer has a second byte. -/
theorem rregReadsOneRegister : Obligations.RregReadsOneRegister := by
  refine ⟨decode_encode .rreg, fun s hidle => ?idle, fun s hfresh => ?fresh⟩
  case idle =>
    exact exec_idle_judged hidle rfl rfl <| State.judged_cons not_addr6Ok_eq_true_iff fun _ => rfl
  case fresh =>
    intro out
    have hlen : (s.busTxn out).1.length = 2 := (s.busTxn_length out).trans (singleRead_length _ _)
    rw [exec_fresh_bus hfresh rfl (secondByte_eq _ hlen.ge), State.complete_setResult0, State.completeWith_exchange,
      State.exchange_csr]
    rfl

/-! ## STROBE -/

theorem strobeOfIndex_eq_reset_iff {k : Nat} : strobeOfIndex k = some .reset ↔ k = 0 := by
  unfold strobeOfIndex; split <;> simp_all

theorem strobeProg_eq {s : State} {c : Strobe} (h : strobeOfIndex s.engine.args.a0.toNat = some c) :
    strobeProg s = strobe s.params c (.done fun t => if c = .reset then t.setConf false else t) := by
  simp only [strobeProg, u32Of, h]

/-- Completion of a strobe: RESET clears `CONF`, every other strobe keeps it. -/
theorem State.complete_strobe (s : State) {P Q : Prop} [Decidable P] [Decidable Q] (h : P ↔ Q) :
    (if P then s.setConf false else s).complete = s.completeWith
      { s.csr with status := { s.csr.status with conf := if Q then false else s.csr.status.conf } } := by
  by_cases hP : P
  · rw [if_pos hP, if_pos (h.mp hP)]; rfl
  · rw [if_neg hP, if_neg (mt h.mpr hP)]; rfl

/-- Settles O13: one check, and a strobe whose byte is `busTransactionForms`'s. -/
theorem strobeSendsOneByte : Obligations.StrobeSendsOneByte := by
  refine ⟨decode_encode .strobe, fun s hidle => ?idle, fun s hfresh hk => ?fresh⟩
  case idle =>
    exact exec_idle_judged hidle rfl rfl <| State.judged_cons decide_eq_true_iff fun _ => rfl
  case fresh =>
    intro c code
    obtain ⟨_, _, _, _, _, hstrobes⟩ := busTransactionForms s.params 0 0 0 []
    obtain ⟨st, hst, htxn⟩ := Option.map_eq_some_iff.mp (hstrobes s.engine.args.a0.toNat (by omega))
    have hzero : st = .reset ↔ s.engine.args.a0 = 0 := by
      rw [← Option.some_inj, ← hst, strobeOfIndex_eq_reset_iff, ← BitVec.toNat_inj]
      rfl
    rw [exec_fresh_bus (i := .strobe) hfresh (strobeProg_eq hst) rfl, State.complete_strobe _ hzero,
      State.completeWith_exchange, State.exchange_csr, htxn]

end Sys2Proof.Machine

/-! PROOFS. A command in the middle of its program: what the replies so far leave of it, and the block step it then
makes (60_exceptions.md R152, R153, 40_bus_access.md R75). The commands of several transactions share these. -/

namespace Sys2Proof.Machine

/-! ## Submission, and a command without a transaction -/

/-- A command without checks of its own is refused by session exclusion only. -/
theorem exec_idle_unchecked {i : Instr} {s : State} (hidle : Idle s) (hi : allowedInSession i = false)
    (hchecks : checkOf i s = none) :
    exec i s = .next (if s.sess.state ≠ .idle then s.refuse .busy else s.accept i) :=
  exec_idle_judged (checks := []) hidle hi hchecks rfl

/-- A command that is allowed in a session has its own checks only (60_exceptions.md R156). -/
theorem exec_idle_judged_of_allowed {i : Instr} {s t : State} {checks : List (Bool × ErrCode)} (hidle : Idle s)
    (hi : allowedInSession i = true) (hchecks : checkOf i s = firstError checks) (hjudged : s.judged i checks = t) :
    exec i s = .next t := by
  rw [exec_eq, runCommand_idle hidle, hchecks, ← hjudged]
  simp only [State.submit, hi, Bool.not_true, Bool.and_false, Bool.false_eq_true, if_false, State.judged]
  cases firstError checks <;> rfl

theorem exec_fresh_done {i : Instr} {s : State} {fx : State → State} (h : Fresh s) (hprog : progOf i s = .done fx) :
    exec i s = .next (fx s).complete := by
  rw [exec_fresh h, hprog, Prog.drive]

/-! ## What is left of a program -/

theorem Prog.resume_append {p q : Prog} {rs rest : List Reply} (h : p.resume rs = some q) :
    p.resume (rs ++ rest) = q.resume rest := by
  induction rs generalizing p with
  | nil =>
    rw [Prog.resume_nil, Option.some_inj] at h
    rw [List.nil_append, h]
  | cons r rs ih =>
    cases p <;> cases r <;> simp only [Prog.resume, reduceCtorEq] at h
    all_goals exact ih h

theorem Prog.drive_ite {c : Prop} [Decidable c] (p q : Prog) (b : Bool) (s : State) :
    (if c then p else q).drive b s = if c then p.drive b s else q.drive b s :=
  apply_ite (fun r : Prog => r.drive b s) c p q

/-- A running command makes the next block step of what its replies leave of its program. -/
theorem exec_at {i : Instr} {s : State} {rs : List Reply} {p : Prog} (hat : At s rs)
    (hp : (progOf i s).resume rs = some p) : exec i s = p.drive true s := by
  obtain ⟨hbusy, hreplies⟩ := hat
  rw [exec_eq, runCommand, if_pos hbusy, hreplies]
  simp only [hp]

/-! ## A list of transactions whose answers are not used -/

/-- The program that makes the transactions `outs` in order, and then goes on with `k`. -/
def sendAll (outs : List (List Byte)) (k : Prog) : Prog := outs.foldr (fun out rest => .bus out fun _ => rest) k

theorem applySeq_eq_sendAll (p : Params) (l : List (ChipAddr × Byte)) (k : Prog) :
    applySeq p l k = sendAll (seqTxns p l) k := by
  induction l with
  | nil => rfl
  | cons e l ih => rw [applySeq, ih]; rfl

theorem resetSeq_eq_sendAll (p : Params) (k : Prog) : resetSeq p k = sendAll (resetTxns p) k := rfl

theorem configureSeq_eq_sendAll (p : Params) (hz : Word) (k : BitVec 24 → Prog) :
    configureSeq p hz k = sendAll (configureTxns p (BitVec.ofNat 24 (freqWord hz.toNat)))
      (k (BitVec.ofNat 24 (freqWord hz.toNat))) := by
  unfold configureSeq configureTxns
  rw [applySeq_eq_sendAll, sendAll, sendAll, List.foldr_append]
  rfl

/-- After as many answers, whatever they are, the later transactions are left. -/
theorem sendAll_resume {outs : List (List Byte)} {rs : List Reply} {out : List Byte} {k : Prog} (hrs : AllBytes rs)
    (hout : outs[rs.length]? = some out) :
    (sendAll outs k).resume rs = some (.bus out fun _ => sendAll (outs.drop (rs.length + 1)) k) := by
  induction rs generalizing outs with
  | nil =>
    cases outs with
    | nil => cases hout
    | cons _ outs => cases hout; rfl
  | cons r rs ih =>
    obtain ⟨⟨bs, rfl⟩, hrest⟩ := List.forall_mem_cons.mp hrs
    cases outs with
    | nil => cases hout
    | cons _ outs => exact ih hrest hout

/-- With the step's transaction used up, a further one waits for the next block step. -/
theorem sendAll_drive_false {outs : List (List Byte)} {k : Prog} {s t : State} (hk : k.drive false s = .next t) :
    (sendAll outs k).drive false s = .next (if 0 < outs.length then s else t) := by
  cases outs with
  | nil => exact hk
  | cons => rfl

/-- A block step among the transactions `outs`: the next of them, and after the last what comes next if that is no
transaction. -/
theorem exec_sendAll {i : Instr} {s t : State} {pre rs : List Reply} {outs : List (List Byte)} {out : List Byte}
    {k : Prog} (hat : At s (pre ++ rs)) (hprog : (progOf i s).resume pre = some (sendAll outs k)) (hrs : AllBytes rs)
    (hout : outs[rs.length]? = some out) (hk : k.drive false (s.exchange out) = .next t) :
    exec i s = .next (if rs.length + 1 < outs.length then s.exchange out else t) := by
  rw [exec_at hat ((Prog.resume_append hprog).trans (sendAll_resume hrs hout)), Prog.drive]
  refine (sendAll_drive_false hk).trans ?_
  simp only [List.length_drop, Nat.sub_pos_iff_lt]

/-- A command that only makes the transactions `outs` completes with the last of them. -/
theorem exec_sendAll_done {i : Instr} {s : State} {rs : List Reply} {outs : List (List Byte)} {out : List Byte}
    {fx : State → State} (hat : At s rs) (hprog : progOf i s = sendAll outs (.done fx)) (hrs : AllBytes rs)
    (hout : outs[rs.length]? = some out) :
    exec i s = .next (if rs.length + 1 < outs.length then s.exchange out else (fx (s.exchange out)).complete) :=
  exec_sendAll (pre := []) hat ((Prog.resume_nil _).trans (congrArg some hprog)) hrs hout rfl

/-! ## A single read -/

/-- A block step that makes a single read goes on with the answer's second byte. -/
theorem readReg_drive (p : Params) (a : ChipAddr) (k : Byte → Prog) (s : State) :
    (readReg p a k).drive true s = (k (s.answer (singleRead p a))).drive false (s.exchange (singleRead p a)) := by
  have hlen : (s.busTxn (singleRead p a)).1.length = 2 := (s.busTxn_length _).trans (singleRead_length p a)
  rw [readReg, Prog.drive, secondByte_eq _ hlen.ge]
  rfl

theorem readReg_resume (p : Params) (a : ChipAddr) (k : Byte → Prog) (x v : Byte) (rs : List Reply) :
    (readReg p a k).resume (.bytes [x, v] :: rs) = (k v).resume rs := rfl

theorem readReg_drive_false (p : Params) (a : ChipAddr) (k : Byte → Prog) (s : State) :
    (readReg p a k).drive false s = .next s := rfl

end Sys2Proof.Machine

/-! PROOFS. `RESET` and `CONFIGURE`, whose transactions are a fixed list, and `ENTER_RX`, which polls (41_rf_lifecycle.md
R82, R89, R90, R92, R93). -/

namespace Sys2Proof.Machine

/-! ## RESET -/

theorem State.complete_setConf_exchange (s : State) (out : List Byte) (b : Bool) :
    ((s.exchange out).setConf b).complete =
      (s.after out).completeWith { s.csr with status := { s.csr.status with conf := b } } := rfl

/-- Settles O14: `exec_sendAll` for the four transactions, whose last one is completed by `CONF` ← 0. -/
theorem resetRunsFourTransactions : Obligations.ResetRunsFourTransactions := by
  refine ⟨decode_encode .reset, fun s hidle => exec_idle_unchecked hidle rfl rfl, fun s rs hat hrs => ?_⟩
  intro outs
  have hlen : outs.length = 4 := rfl
  have hprog : progOf .reset s = sendAll outs (.done fun t => t.setConf false) := resetSeq_eq_sendAll _ _
  refine ⟨fun k out hk hlt hout => ?going, fun out hk hout => ?last⟩
  case going =>
    rw [exec_sendAll_done hat hprog hrs (hk ▸ hout), hlen, if_pos (by omega)]
  case last =>
    rw [exec_sendAll_done hat hprog hrs (hk ▸ hout), hlen, if_neg (by omega), State.complete_setConf_exchange]

/-! ## CONFIGURE -/

theorem State.complete_configured_exchange (s : State) (out : List Byte) (w : BitVec 24) (v : Word) :
    ((configured w (s.exchange out)).setResult0 v).complete = (s.after out).completeWith
      { s.csr with freqWordCur := w, result0 := v, status := { s.csr.status with conf := true } } := Eq.trans rfl rfl

/-- Settles O16: `exec_sendAll` for the configuration's transactions. -/
theorem configureWritesTableFrequencyAndPower : Obligations.ConfigureWritesTableFrequencyAndPower := by
  refine ⟨decode_encode .configure, fun s hidle => exec_idle_unchecked hidle rfl rfl, fun s rs out hat hrs => ?_⟩
  intro w outs hout
  have hprog : progOf .configure s = sendAll outs (.done fun t => (configured w t).setResult0 (w.setWidth 32)) :=
    configureSeq_eq_sendAll s.params s.engine.args.a0 fun w =>
      .done fun t => (configured w t).setResult0 (w.setWidth 32)
  rw [exec_sendAll_done hat hprog hrs hout, State.complete_configured_exchange]

/-! ## ENTER_RX -/

/-- A pass of a polling loop forgets what it has learned, and keeps the replies before it. -/
theorem State.keepReplies_poll {s : State} {n : Nat} (hn : s.engine.replies.length = n) (out : List Byte) (r : Reply) :
    (State.record { s.exchange out with env := (s.exchange out).env.readClock.2 } r).keepReplies n =
      (s.after out).ticked := by
  have hreplies : (s.engine.replies ++ [Reply.bytes (s.busTxn out).1] ++ [r]).take n = s.engine.replies := by
    rw [List.append_assoc, List.take_append_of_le_length hn.ge, List.take_of_length_le hn.le]
  simp only [State.keepReplies, State.record, State.exchange, State.busTxn_engine, hreplies]
  rfl

/-- Settles O17: the two strobes are sent, and the poll is one single read with the clock's reading after it. -/
theorem enterRxStrobesThenPolls : Obligations.EnterRxStrobesThenPolls := by
  refine ⟨decode_encode .enterRx, fun s hidle => exec_idle_unchecked hidle rfl rfl, fun s => ?_⟩
  refine ⟨fun hat => (exec_at hat (Prog.resume_nil _)).trans rfl, fun a hat => (exec_at hat rfl).trans rfl,
    fun a b hat => ?poll⟩
  intro out st u now
  have hprog : (progOf .enterRx s).resume [.bytes a, .bytes b] = some (enterRxPoll s) := rfl
  have hlen : s.engine.replies.length = 2 := congrArg List.length hat.2
  rw [exec_at hat hprog, enterRxPoll, readReg_drive]
  refine (Prog.drive_ite (c := st ∈ s.params.rxStates) _ _ _ _).trans ?_
  split
  case isTrue => rw [Prog.drive, State.complete_setResult01, State.completeWith_exchange, State.exchange_csr]; rfl
  case isFalse =>
    rw [Prog.drive]
    refine (Prog.drive_ite (c := 300 ≤ (now - s.engine.t0).toNat) _ _ _ _).trans ?_
    split
    case isTrue => rw [Prog.drive, State.complete_setResult01]; rfl
    case isFalse => rw [Prog.drive, State.keepReplies_poll hlen]

end Sys2Proof.Machine

/-! PROOFS. `PROBE` and `INIT`: the identity attempts that both make, and what each goes on with (41_rf_lifecycle.md
R83, R91, R94). -/

namespace Sys2Proof.Machine

/-! ## An identity attempt -/

theorem badIdentity_eq_true_iff {id0 id1 : Byte} :
    badIdentity id0 id1 = true ↔ (id0 = 0xFF ∧ id1 = 0xFF) ∨ (id0 = 0 ∧ id1 = 0) := by
  simp [badIdentity]

/-- What follows an attempt's two reads, with `left` more attempts after it (41_rf_lifecycle.md R83). -/
def probeVerdict (p : Params) (left att : Nat) (k : ProbeResult → Prog) (id0 id1 : Byte) : Prog :=
  if badIdentity id0 id1 = true ∧ 0 < left then resetSeq p (probeFrom p (left - 1) (att + 1) k)
  else k { ok := !badIdentity id0 id1, id0 := id0, id1 := id1, attempts := att }

theorem probeFrom_eq (p : Params) (left att : Nat) (k : ProbeResult → Prog) :
    probeFrom p left att k =
      readReg p p.idAddr0 fun id0 => readReg p p.idAddr1 fun id1 => probeVerdict p left att k id0 id1 := by
  cases left with
  | zero =>
    rw [probeFrom]
    congr! 4 with id0 id1
    exact (if_neg fun h => absurd h.2 (Nat.lt_irrefl 0)).symm
  | succ left =>
    rw [probeFrom]
    congr! 4 with id0 id1
    unfold probeVerdict
    cases badIdentity id0 id1
    · rfl
    · exact (if_pos ⟨rfl, left.succ_pos⟩).symm

theorem probeFrom_resume_reads (p : Params) (left att : Nat) (k : ProbeResult → Prog) (x id0 y id1 : Byte)
    (rs : List Reply) :
    (probeFrom p left att k).resume (.bytes [x, id0] :: .bytes [y, id1] :: rs) =
      (probeVerdict p left att k id0 id1).resume rs := by
  rw [probeFrom_eq, readReg_resume, readReg_resume]

theorem probeFrom_drive_false (p : Params) (left att : Nat) (k : ProbeResult → Prog) (s : State) :
    (probeFrom p left att k).drive false s = .next s := by
  rw [probeFrom_eq, readReg_drive_false]

/-- A failed attempt and its reset lead to the next attempt. -/
theorem probeFrom_resume_failedAttempt {p : Params} {left att : Nat} {k : ProbeResult → Prog} {rs : List Reply}
    (h : FailedAttempt rs) : (probeFrom p (left + 1) att k).resume rs = some (probeFrom p left (att + 1) k) := by
  obtain ⟨x0, y0, x1, y1, r0, r1, r2, r3, hbad, rfl⟩ := h
  rw [probeFrom_resume_reads, probeVerdict, if_pos ⟨hbad, left.succ_pos⟩]
  exact Prog.resume_nil _

theorem probeFrom_resume_failedAttempts {p : Params} {n left att : Nat} {k : ProbeResult → Prog} {pre : List Reply}
    (h : FailedAttempts n pre) : (probeFrom p (left + n) att k).resume pre = some (probeFrom p left (att + n) k) := by
  induction n generalizing att pre with
  | zero =>
    rw [FailedAttempts] at h
    rw [h, Prog.resume_nil]
    rfl
  | succ n ih =>
    obtain ⟨first, rest, hfirst, hrest, rfl⟩ := h
    rw [← Nat.add_assoc, Prog.resume_append (probeFrom_resume_failedAttempt hfirst), ih hrest, Nat.add_assoc att 1 n,
      Nat.add_comm 1 n]

/-! ## The block steps of a command that begins with the probe -/

section Probing
variable {i : Instr} {s : State} {k : ProbeResult → Prog} {n : Nat} {pre : List Reply}

/-- After `n` failed attempts the probe is in its attempt `n + 1` of three. -/
theorem probing_resume (hprog : progOf i s = probeSeq s.params k) (hn : n ≤ 2) (hpre : FailedAttempts n pre) :
    (progOf i s).resume pre = some (probeFrom s.params (2 - n) (n + 1) k) := by
  have h := probeFrom_resume_failedAttempts (p := s.params) (left := 2 - n) (att := 1) (k := k) hpre
  rw [Nat.sub_add_cancel hn, Nat.add_comm 1 n] at h
  rw [hprog, probeSeq, h]

theorem exec_firstIdentityRead (hprog : progOf i s = probeSeq s.params k) (hn : n ≤ 2) (hpre : FailedAttempts n pre)
    (hat : At s pre) : exec i s = .next (s.exchange (singleRead s.params s.params.idAddr0)) := by
  rw [exec_at hat (probing_resume hprog hn hpre), probeFrom_eq, readReg_drive, readReg_drive_false]

/-- The second read's answer decides between the next reset and the probe's end. -/
theorem exec_secondIdentityRead (hprog : progOf i s = probeSeq s.params k) (hn : n ≤ 2) (hpre : FailedAttempts n pre)
    {x id0 : Byte} (hat : At s (pre ++ [.bytes [x, id0]])) :
    let out := singleRead s.params s.params.idAddr1
    let id1 := s.answer out
    let bad := (id0 = 0xFF ∧ id1 = 0xFF) ∨ (id0 = 0x00 ∧ id1 = 0x00)
    exec i s = if bad ∧ n < 2 then .next (s.exchange out)
      else (k { ok := decide ¬bad, id0 := id0, id1 := id1, attempts := n + 1 }).drive false (s.exchange out) := by
  intro out id1 bad
  have hresume : (progOf i s).resume (pre ++ [.bytes [x, id0]]) =
      some (readReg s.params s.params.idAddr1 fun id1 => probeVerdict s.params (2 - n) (n + 1) k id0 id1) := by
    rw [Prog.resume_append (probing_resume hprog hn hpre), probeFrom_eq, readReg_resume, Prog.resume_nil]
  have hok : (!badIdentity id0 id1) = decide ¬bad := by
    rw [decide_not, Bool.not_inj_iff, Bool.eq_iff_iff, badIdentity_eq_true_iff, decide_eq_true_iff]
  rw [exec_at hat hresume, readReg_drive, probeVerdict, Prog.drive_ite, hok]
  exact if_congr (and_congr badIdentity_eq_true_iff Nat.sub_pos_iff_lt) rfl rfl

theorem exec_resetAfterFailedAttempt (hprog : progOf i s = probeSeq s.params k) (hn : n < 2)
    (hpre : FailedAttempts n pre) {x id0 y id1 : Byte} {rs : List Reply} {out : List Byte}
    (hbad : badIdentity id0 id1 = true) (hrs : AllBytes rs) (hout : (resetTxns s.params)[rs.length]? = some out)
    (hat : At s (pre ++ [.bytes [x, id0], .bytes [y, id1]] ++ rs)) : exec i s = .next (s.exchange out) := by
  have hreset : (progOf i s).resume (pre ++ [.bytes [x, id0], .bytes [y, id1]]) =
      some (sendAll (resetTxns s.params) (probeFrom s.params (2 - n - 1) (n + 1 + 1) k)) := by
    rw [Prog.resume_append (probing_resume hprog hn.le hpre), probeFrom_resume_reads, Prog.resume_nil, probeVerdict,
      if_pos ⟨hbad, Nat.sub_pos_of_lt hn⟩, resetSeq_eq_sendAll]
  rw [exec_sendAll hat hreset hrs hout (probeFrom_drive_false _ _ _ _ _), ite_self]

theorem probing_resume_good (hprog : progOf i s = probeSeq s.params k) (hn : n ≤ 2) (hpre : FailedAttempts n pre)
    {x id0 y id1 : Byte} (hgood : badIdentity id0 id1 = false) (rest : List Reply) :
    (progOf i s).resume (pre ++ .bytes [x, id0] :: .bytes [y, id1] :: rest) =
      (k { ok := true, id0 := id0, id1 := id1, attempts := n + 1 }).resume rest := by
  rw [Prog.resume_append (probing_resume hprog hn hpre), probeFrom_resume_reads, probeVerdict, hgood,
    if_neg fun h => Bool.false_ne_true h.1, Bool.not_false]

end Probing

/-! ## PROBE -/

theorem bit_decide_not (P : Prop) [Decidable P] : bit (decide ¬P) = if P then 0#1 else 1#1 := by
  by_cases h : P
  · rw [if_pos h, decide_eq_false (not_not.mpr h)]; rfl
  · rw [if_neg h, decide_eq_true h]; rfl

/-- The flags a probe leaves: a reset has cleared `CONF`, unless the first attempt was the last. -/
theorem State.complete_probeFlags (s : State) (r : ProbeResult) (n : Nat) (hn : r.attempts = n + 1) (v w : Word) :
    (((probeFlags r s).setResult0 v).setResult1 w).complete = s.completeWith
      { s.csr with
        result0 := v
        result1 := w
        status := { s.csr.status with chip := r.ok, conf := if n = 0 then s.csr.status.conf else false } } := by
  rw [State.complete_setResult01]
  unfold probeFlags
  by_cases h : n = 0
  · rw [if_neg (by omega), if_pos h]; rfl
  · rw [if_pos (by omega), if_neg h]; rfl

/-- Settles O15: the shared identity attempts, and the probe's results when they end. -/
theorem probeReadsTheIdentityUpToThreeTimes : Obligations.ProbeReadsTheIdentityUpToThreeTimes := by
  refine ⟨decode_encode .probe, fun s hidle => exec_idle_unchecked hidle rfl rfl,
    fun s n pre hn hpre => ⟨exec_firstIdentityRead rfl hn hpre, fun x id0 hat => ?second,
      fun x id0 y id1 rs out hlt hbad hrs hout => exec_resetAfterFailedAttempt rfl hlt hpre hbad hrs hout⟩⟩
  intro out id1 bad
  rw [exec_secondIdentityRead (i := .probe) rfl hn hpre hat, Prog.drive, State.complete_probeFlags _ _ n rfl, probeWord,
    bit_decide_not, State.completeWith_exchange, State.exchange_csr, apply_ite Host.Outcome.next]

/-! ## INIT -/

/-- What `INIT` goes on with when its probe has ended (41_rf_lifecycle.md R94). -/
def initRest (p : Params) (r : ProbeResult) : Prog :=
  if r.ok then
    .csr (fun c => c.freq) fun hz =>
      configureSeq p hz fun w =>
        .done fun t => ((configured w (probeFlags r t)).setResult0 (probeWord r)).setResult1 (w.setWidth 32)
  else .done fun t => ((probeFlags r t).setResult0 (probeWord r)).setResult1 0

theorem probeWord_eq (r : ProbeResult) :
    probeWord r = 0#15 ++ (if r.ok = true then 1#1 else 0#1) ++ r.id1 ++ r.id0 := by
  unfold probeWord
  cases r.ok <;> rfl

theorem State.complete_configured_probeFlags (s : State) (r : ProbeResult) (w : BitVec 24) (u v : Word) :
    (((configured w (probeFlags r s)).setResult0 u).setResult1 v).complete = s.completeWith
      { s.csr with result0 := u, result1 := v, freqWordCur := w
                   status := { s.csr.status with chip := r.ok, conf := true } } := by
  rw [State.complete_setResult01]
  unfold probeFlags
  split <;> rfl

theorem initRest_drive_of_not_ok {r : ProbeResult} {n : Nat} (hok : r.ok = false) (hn : r.attempts = n + 1)
    (p : Params) (s : State) :
    (initRest p r).drive false s = .next (s.completeWith
      { s.csr with
        result0 := probeWord r
        result1 := 0
        status := { s.csr.status with chip := false, conf := if n = 0 then s.csr.status.conf else false } }) := by
  rw [initRest, if_neg (by rw [hok]; decide), Prog.drive, State.complete_probeFlags s r n hn, hok]

/-- After `FREQ` is taken, the configuration's first transaction waits for the next block step. -/
theorem initRest_drive_of_ok {r : ProbeResult} (hok : r.ok = true) (p : Params) (s : State) :
    (initRest p r).drive false s = .next (s.record (.word s.csr.freq)) := by
  rw [initRest, if_pos hok, Prog.drive, configureSeq_eq_sendAll, sendAll_drive_false rfl, if_pos]
  simp [configureTxns]

theorem initRest_resume_of_ok {r : ProbeResult} (hok : r.ok = true) (p : Params) (hz : Word) :
    let w : BitVec 24 := BitVec.ofNat 24 (freqWord hz.toNat)
    (initRest p r).resume [.word hz] = some (sendAll (configureTxns p w) (.done fun t =>
      ((configured w (probeFlags r t)).setResult0 (probeWord r)).setResult1 (w.setWidth 32))) := by
  rw [initRest, if_pos hok, Prog.resume, Prog.resume_nil, configureSeq_eq_sendAll]

/-- Settles O18: the shared identity attempts, then the configuration's transactions. -/
theorem initProbesThenConfigures : Obligations.InitProbesThenConfigures := by
  refine ⟨decode_encode .init, fun s hidle => exec_idle_unchecked hidle rfl rfl, fun s n pre hn hpre => ?_⟩
  have hprog : progOf .init s = probeSeq s.params (initRest s.params) := rfl
  refine ⟨exec_firstIdentityRead hprog hn hpre, fun x id0 hat => ?second,
    fun x id0 y id1 rs out hlt hbad hrs hout => exec_resetAfterFailedAttempt hprog hlt hpre hbad hrs hout,
    fun x id0 y id1 hz rs out hgood hrs hat => ?configure⟩
  case second =>
    intro out id1 bad
    rw [exec_secondIdentityRead hprog hn hpre hat]
    by_cases hbad : bad
    · by_cases hlt : n < 2
      · rw [if_pos ⟨hbad, hlt⟩, if_neg (not_not.mpr hbad), if_pos hlt]
      · rw [if_neg (fun h => hlt h.2), if_neg (not_not.mpr hbad), if_neg hlt,
          decide_eq_false (not_not.mpr hbad), initRest_drive_of_not_ok rfl rfl, if_neg (by omega),
          State.completeWith_exchange, State.exchange_csr, probeWord_eq]
    · rw [if_neg (fun h => hbad h.1), if_pos hbad, initRest_drive_of_ok (decide_eq_true hbad), State.exchange_csr]
  case configure =>
    intro w outs hout
    have hresume := (probing_resume_good (x := x) (y := y) hprog hn hpre hgood [.word hz]).trans
      (initRest_resume_of_ok rfl s.params hz)
    rw [exec_sendAll hat hresume hrs hout rfl, State.complete_configured_probeFlags, State.completeWith_exchange,
      State.exchange_csr, probeWord_eq]

end Sys2Proof.Machine

/-! PROOFS. `DIAG`, and the commands that only compute: `RSSI_DBM`, `FREQ_WORD`, `FREQ_HZ` (41_rf_lifecycle.md R84 to
R88, R95 to R98). -/

namespace Sys2Proof.Machine

/-! ## DIAG -/

/-- The answers so far are the bytes collected, and the next address is as many further. -/
theorem readRegs_resume (p : Params) (n : Nat) (a : ChipAddr) (acc : List Byte) (k : List Byte → Prog)
    (got : List (Byte × Byte)) :
    (readRegs p (n + got.length) a acc k).resume (got.map fun e => .bytes [e.1, e.2]) =
      some (readRegs p n (a + BitVec.ofNat 6 got.length) (acc ++ got.map Prod.snd) k) := by
  induction got generalizing a acc with
  | nil => simp
  | cons e got ih =>
    rw [List.length_cons, ← Nat.add_assoc, readRegs, List.map_cons, readReg_resume, ih, List.map_cons,
      List.append_assoc, List.singleton_append, Nat.add_comm got.length 1, BitVec.ofNat_add, BitVec.add_assoc]
    rfl

/-- The fourteen status registers are read with the burst header (30_encoding.md R64). -/
theorem singleRead_status (p : Params) {j : Nat} (hj : j ≤ 13) :
    singleRead p (0x30 + BitVec.ofNat 6 j) = [BitVec.ofNat 8 (0x30 + j) ||| (p.opRead ||| p.opBurst), 0x00] := by
  have haddr : (0x30 + BitVec.ofNat 6 j : ChipAddr).toNat = 0x30 + j := by
    rw [BitVec.toNat_add, BitVec.toNat_ofNat, show (0x30 : ChipAddr).toNat = 0x30 from rfl]
    omega
  rw [singleRead_of_isStatus (isStatus_eq_true_iff.mpr (by omega)), header, ← BitVec.ofNat_toNat, haddr]

theorem readRegs_drive_false {p : Params} {n : Nat} {a : ChipAddr} {acc : List Byte} {k : List Byte → Prog}
    (hn : 0 < n) (s : State) : (readRegs p n a acc k).drive false s = .next s := by
  cases n with
  | zero => exact absurd hn (Nat.lt_irrefl 0)
  | succ n => rfl

/-- A block step of `DIAG` makes the next read, and goes on with the bytes answered so far. -/
theorem exec_diag {s : State} {got : List (Byte × Byte)} (hat : At s (got.map fun e => .bytes [e.1, e.2]))
    (hlen : got.length ≤ 13) :
    let addr : ChipAddr := 0x30 + BitVec.ofNat 6 got.length
    let out := singleRead s.params addr
    exec .diag s = (readRegs s.params (13 - got.length) (addr + 1) (got.map Prod.snd ++ [s.answer out]) fun bs =>
      .done fun t => (t.writeBytes xb bs).setResult0 14).drive false (s.exchange out) := by
  have hresume := readRegs_resume s.params (13 - got.length + 1) 0x30 []
    (fun bs => .done fun t => (t.writeBytes xb bs).setResult0 14) got
  have hcount : 13 - got.length + 1 + got.length = 14 := by omega
  rw [hcount] at hresume
  rw [exec_at (i := .diag) hat hresume, readRegs, readReg_drive]
  rfl

/-- Settles O19: `exec_diag`, whose last read leaves only the bytes' store. -/
theorem diagReadsTheStatusRegisters : Obligations.DiagReadsTheStatusRegisters := by
  refine ⟨decode_encode .diag, fun s hidle => exec_idle_unchecked hidle rfl rfl, fun s got hat hlen => ?_⟩
  intro out
  have hstep := exec_diag hat hlen
  simp only [singleRead_status s.params hlen] at hstep
  refine ⟨fun hlt => ?going, fun hlast => ?last⟩
  case going =>
    rw [hstep, readRegs_drive_false (Nat.sub_pos_of_lt hlt)]
  case last =>
    have hleft : 13 - got.length = 0 := by omega
    rw [hleft] at hstep
    refine ⟨_, hstep, ?_, stored_write _ _ _⟩
    rw [State.complete_setResult0]
    rfl

/-! ## RSSI_DBM -/

theorem byteOf_toNat (w : Word) : (byteOf w).toNat = w.toNat % 256 := by
  rw [byteOf, BitVec.extractLsb'_toNat, Nat.shiftRight_zero]

theorem s8_bounds (b : Byte) : -128 ≤ s8 b ∧ s8 b ≤ 127 := by
  have hb := b.isLt
  unfold s8
  split <;> omega

/-- Settles O20: one check, and the signed byte's range moved by 148. -/
theorem rssiDbmIsTwiceTheDbmValue : Obligations.RssiDbmIsTwiceTheDbmValue := by
  refine ⟨decode_encode .rssiDbm, fun s hidle => ?idle, fun s hfresh => ?fresh⟩
  case idle =>
    exact exec_idle_judged_of_allowed hidle rfl rfl <| State.judged_cons not_byteOk_eq_true_iff fun _ => rfl
  case fresh =>
    intro raw x2
    have hx2 : rssiX2 (byteOf s.engine.args.a0) = x2 := by
      rw [rssiX2, s8, byteOf_toNat]
    have hbounds := s8_bounds (byteOf s.engine.args.a0)
    rw [rssiX2] at hx2
    refine ⟨by omega, by omega, ?_⟩
    rw [exec_fresh_done hfresh rfl, State.complete_setResult0, rssiX2, hx2]

/-! ## FREQ_WORD and FREQ_HZ -/

theorem not_word24Ok_eq_true_iff {w : Word} : (!word24Ok w) = true ↔ 0x1000000 ≤ w.toNat := not_fits_eq_true_iff

theorem word24Of_toNat {w : Word} (hw : w.toNat < 0x1000000) : (word24Of w).toNat = w.toNat := by
  rw [word24Of, BitVec.extractLsb'_toNat, Nat.shiftRight_zero, Nat.mod_eq_of_lt hw]

/-- The word of the highest 32-bit frequency (41_rf_lifecycle.md R84). -/
theorem freqWord_le {hz : Nat} (h : hz < 2 ^ 32) : freqWord hz ≤ 0xA530E9 := by
  unfold freqWord; omega

theorem freqHz_lt {w : Nat} (h : w ≤ 0xA530E8) : freqHz w < 2 ^ 32 := by
  unfold freqHz; omega

/-- The round trip is off by half a word's step and half a hertz at most (41_rf_lifecycle.md R87). -/
theorem freqHz_freqWord (hz : Nat) : freqHz (freqWord hz) ≤ hz + 198 ∧ hz ≤ freqHz (freqWord hz) + 198 := by
  unfold freqHz freqWord; omega

/-- Settles O21: each conversion's bound, and two checks of `FREQ_HZ` on the operand's 24 bits. -/
theorem frequencyConversionsRoundToNearest : Obligations.FrequencyConversionsRoundToNearest := by
  refine ⟨decode_encode .freqWord, decode_encode .freqHz, fun n => ⟨rfl, rfl, rfl⟩, fun s hidle => ⟨?word, ?hz⟩,
    fun s hfresh => ⟨freqWord_le (BitVec.isLt _), ?wordStep⟩, fun s hfresh hw => ⟨freqHz_lt hw, ?hzStep⟩,
    fun hz _ _ => freqHz_freqWord hz⟩
  case word => exact exec_idle_judged_of_allowed (checks := []) hidle rfl rfl rfl
  case hz =>
    refine exec_idle_judged_of_allowed hidle rfl rfl <| State.judged_cons not_word24Ok_eq_true_iff fun hok =>
      State.judged_cons ?_ fun _ => rfl
    rw [decide_eq_true_iff, word24Of_toNat (by omega)]
  case wordStep => rw [exec_fresh_done hfresh rfl, State.complete_setResult0]
  case hzStep =>
    rw [exec_fresh_done hfresh rfl, State.complete_setResult01, word24Of_toNat (by omega)]

end Sys2Proof.Machine

/-! PROOFS. The checksum: its bit-serial form, its zeros, and the command `CRC16` (42_checksum.md R99 to R105).

A shift step is linear over XOR, and it only shifts a word whose lowest bit is 0. So the eight steps of a byte's update
act on the accumulator's two halves apart: the high byte moves down, and the low byte is looked up. -/

namespace Sys2Proof.Machine

/-! ## The shift step -/

theorem xor_xor_xor_cancel (a b p : BitVec 16) : (a ^^^ p) ^^^ (b ^^^ p) = a ^^^ b := by
  rw [BitVec.xor_comm b p, ← BitVec.xor_assoc, BitVec.xor_assoc a p p, BitVec.xor_self, BitVec.xor_zero]

theorem crcShift_xor (a b : BitVec 16) : crcShift (a ^^^ b) = crcShift a ^^^ crcShift b := by
  simp only [crcShift, BitVec.getLsbD_xor, BitVec.ushiftRight_xor_distrib]
  cases a.getLsbD 0 <;> cases b.getLsbD 0
  case true.true => exact (xor_xor_xor_cancel (a >>> 1) (b >>> 1) 0x8408#16).symm
  case true.false =>
    change (a >>> 1 ^^^ b >>> 1) ^^^ 0x8408#16 = (a >>> 1 ^^^ 0x8408#16) ^^^ b >>> 1
    ac_rfl
  case false.true => exact BitVec.xor_assoc (a >>> 1) (b >>> 1) 0x8408#16
  case false.false => rfl

theorem repeat_crcShift_xor (n : Nat) (a b : BitVec 16) :
    Nat.repeat crcShift n (a ^^^ b) = Nat.repeat crcShift n a ^^^ Nat.repeat crcShift n b := by
  induction n with
  | zero => rfl
  | succ n ih => rw [Nat.repeat, ih, crcShift_xor]; rfl

theorem crcShift_of_even {c : BitVec 16} (h : c.getLsbD 0 = false) : crcShift c = c >>> 1 :=
  if_neg (Bool.eq_false_iff.mp h)

theorem repeat_crcShift_of_low_zero {n : Nat} {c : BitVec 16} (h : ∀ i < n, c.getLsbD i = false) :
    Nat.repeat crcShift n c = c >>> n := by
  induction n with
  | zero => exact (BitVec.ushiftRight_zero c).symm
  | succ n ih =>
    have heven : (c >>> n).getLsbD 0 = false := by
      rw [BitVec.getLsbD_ushiftRight]
      exact h n (Nat.lt_succ_self n)
    rw [Nat.repeat, ih fun i hi => h i (Nat.lt_succ_of_lt hi), crcShift_of_even heven, ← BitVec.shiftRight_add]

/-! ## The update by one byte -/

/-- `T(i)` is eight steps from the index (42_checksum.md R99). -/
theorem crcEntry_eq_repeat (i : Byte) : crcEntry i = Nat.repeat crcShift 8 (i.setWidth 16) := rfl

theorem eq_high_xor_low (c : BitVec 16) : c = ((c >>> 8) <<< 8) ^^^ (c.extractLsb' 0 8).setWidth 16 := by
  refine BitVec.eq_of_getLsbD_eq fun i hi => ?_
  by_cases hlow : i < 8
  · simp [hlow, hi]
  · simp [hlow, hi, Nat.add_sub_cancel' (Nat.le_of_not_lt hlow)]

theorem shiftRight_shiftLeft_shiftRight_eight (c : BitVec 16) : ((c >>> 8) <<< 8) >>> 8 = c >>> 8 := by
  refine BitVec.eq_of_getLsbD_eq fun i _ => ?_
  have htop : 16 ≤ 8 + i → c.getLsbD (8 + i) = false := c.getLsbD_of_ge (8 + i)
  rw [BitVec.getLsbD_ushiftRight, BitVec.getLsbD_shiftLeft, BitVec.getLsbD_ushiftRight]
  by_cases hin : 8 + i < 16
  · simp [hin]
  · simp [hin, htop (Nat.le_of_not_lt hin)]

/-- Eight steps: the high byte moves down, the low byte is looked up (42_checksum.md R102). -/
theorem repeat_crcShift_eight (c : BitVec 16) :
    Nat.repeat crcShift 8 c = (c >>> 8) ^^^ crcEntry (c.extractLsb' 0 8) := by
  have hhigh : Nat.repeat crcShift 8 ((c >>> 8) <<< 8) = c >>> 8 := by
    rw [repeat_crcShift_of_low_zero fun i hi => by simp [hi], shiftRight_shiftLeft_shiftRight_eight]
  calc Nat.repeat crcShift 8 c
      = Nat.repeat crcShift 8 (((c >>> 8) <<< 8) ^^^ (c.extractLsb' 0 8).setWidth 16) := by rw [← eq_high_xor_low]
    _ = (c >>> 8) ^^^ crcEntry (c.extractLsb' 0 8) := by rw [repeat_crcShift_xor, hhigh, crcEntry_eq_repeat]

/-- The table's index is the low byte of the accumulator with the byte added (42_checksum.md R101). -/
theorem crcUpdate_eq (crc : BitVec 16) (b : Byte) :
    crcUpdate crc b = (crc >>> 8) ^^^ crcEntry ((crc ^^^ b.setWidth 16).extractLsb' 0 8) := by
  have hindex : crc.setWidth 8 ^^^ b = (crc ^^^ b.setWidth 16).extractLsb' 0 8 := by
    rw [BitVec.extractLsb'_xor, BitVec.setWidth_eq_extractLsb' (by decide),
      BitVec.extractLsb'_setWidth_of_le (by decide), BitVec.extractLsb'_eq_self]
  rw [crcUpdate, hindex]

theorem crcUpdate_eq_repeat (crc : BitVec 16) (b : Byte) :
    crcUpdate crc b = Nat.repeat crcShift 8 (crc ^^^ b.setWidth 16) := by
  have hhigh : (crc ^^^ b.setWidth 16) >>> 8 = crc >>> 8 := by
    ext i hi
    simp
  rw [repeat_crcShift_eight, hhigh, crcUpdate_eq]

/-! ## The accumulator and the returned value -/

theorem crcRaw_eq_foldl {f : BitVec 16 → Byte → BitVec 16} (h : ∀ crc b, crcUpdate crc b = f crc b)
    (bytes : List Byte) : crcRaw bytes = bytes.foldl f 0 :=
  congrArg (fun g => bytes.foldl g 0) (funext₂ h)

/-- A zero byte keeps the initial accumulator (42_checksum.md R103). -/
theorem crcUpdate_zero_zero : crcUpdate 0 0 = 0 := rfl

theorem foldl_crcUpdate_replicate_zero (k : Nat) : (List.replicate k (0 : Byte)).foldl crcUpdate 0 = 0 := by
  induction k with
  | zero => rfl
  | succ k ih => rw [List.replicate_succ, List.foldl_cons, crcUpdate_zero_zero, ih]

theorem crcSwap_low (raw : BitVec 16) : (crcSwap raw).extractLsb' 0 8 = raw.extractLsb' 8 8 :=
  BitVec.extractLsb'_append_eq_right

theorem crcSwap_high (raw : BitVec 16) : (crcSwap raw).extractLsb' 8 8 = raw.extractLsb' 0 8 :=
  BitVec.extractLsb'_append_eq_left

theorem crcSwap_crcSwap (raw : BitVec 16) : crcSwap (crcSwap raw) = raw :=
  calc crcSwap (crcSwap raw)
      = raw.extractLsb' 8 8 ++ raw.extractLsb' 0 8 := by rw [crcSwap, crcSwap_low, crcSwap_high]
    _ = raw.extractLsb' 0 16 := BitVec.extractLsb'_append_extractLsb'_eq_extractLsb' rfl
    _ = raw := BitVec.extractLsb'_eq_self

theorem crcSwap_eq_zero_iff {raw : BitVec 16} : crcSwap raw = 0 ↔ raw = 0 :=
  (Function.LeftInverse.injective crcSwap_crcSwap).eq_iff' rfl

/-- Settles O28: an update is eight shift steps, `crcRaw` is a fold, and the swap is its own inverse. -/
theorem checksumIsBitSerial : Obligations.ChecksumIsBitSerial := by
  refine ⟨crcRaw_eq_foldl crcUpdate_eq_repeat, fun k bytes => ?zeros, fun _ => crcSwap_eq_zero_iff⟩
  case zeros => rw [crcRaw, List.foldl_append, foldl_crcUpdate_replicate_zero, crcRaw]

/-! ## CRC16 -/

theorem not_brefOk_eq_true_iff {w : Word} : (!brefOk w) = true ↔ 65536 ≤ w.toNat := not_fits_eq_true_iff

/-- Settles O22: `State.judged_cons` for each check; then the range is read, and its checksum returned or the read
faults. -/
theorem crc16ReturnsTheChecksumOfARange : Obligations.Crc16ReturnsTheChecksumOfARange := by
  refine ⟨decode_encode .crc16, fun s hidle => ?idle, fun s hfresh => ?fresh⟩
  case idle =>
    exact exec_idle_judged hidle rfl rfl <| State.judged_cons not_brefOk_eq_true_iff fun _ =>
      State.judged_cons (.of_eq (Bool.not_eq_true' _)) fun _ => rfl
  case fresh =>
    intro src n hrange
    refine ⟨fun bs hread => ?computed, fun hread => ?unwritten⟩
    case computed =>
      intro raw
      have hraw : crcRaw bs = raw := crcRaw_eq_foldl crcUpdate_eq bs
      rw [exec_fresh_done (i := .crc16) hfresh (readRange_of_some hrange hread), State.complete_setResult01, crcOut,
        hraw]
      rfl
    case unwritten =>
      have hprog : progOf .crc16 s = .stop .readUnwritten := readRange_of_none hrange hread
      rw [exec_fresh hfresh, hprog, Prog.drive]

end Sys2Proof.Machine

/-! PROOFS. The framer's commands: `BUILD_REQ` and `ENCODE` (43_framer.md R106 to R111). -/

namespace Sys2Proof.Machine

/-! ## The request's payload and frame -/

/-- The year and the serial number are the meter identity's four bytes, highest first (10_state.md R26). -/
theorem payloadBody_meter (template : List Byte) (m : Word) :
    payloadBody template (m.extractLsb' 24 8) (m.extractLsb' 0 24) =
      template.take 4 ++ [m.extractLsb' 24 8, m.extractLsb' 16 8, m.extractLsb' 8 8, m.extractLsb' 0 8] ++
        (template.drop 8).take 9 := by
  rw [payloadBody, BitVec.extractLsb'_extractLsb'_of_le (by decide), BitVec.extractLsb'_extractLsb'_of_le (by decide),
    BitVec.extractLsb'_extractLsb'_of_le (by decide)]

theorem payloadOfMeter_eq (p : Params) (m : Word) :
    let body := payloadBody p.reqTemplate.toList (m.extractLsb' 24 8) (m.extractLsb' 0 24)
    payloadOfMeter p m = body ++ [(crcOut body).extractLsb' 8 8, (crcOut body).extractLsb' 0 8] := rfl

/-- The checksum stands behind the 17 bytes it is taken over (43_framer.md R106). -/
theorem payloadOfMeter_take (p : Params) (m : Word) :
    (payloadOfMeter p m).take 17 = payloadBody p.reqTemplate.toList (m.extractLsb' 24 8) (m.extractLsb' 0 24) := by
  rw [payloadOfMeter_eq]
  exact List.take_left' (payloadBody_length _ _ _)

theorem payb_toNat : payb.toNat = 0x5000 := rfl

/-- PAYB and TXB do not overlap, so the frame's store leaves the payload (20_memory.md R41). -/
theorem writeRequest_read {payload : List Byte} (hlen : payload.length = 19) (s : State) (x : Nat) :
    (writeRequest payload s).mem.read x =
      if 0x5000 ≤ x ∧ x < 0x5000 + 19 then payload[x - 0x5000]?
      else if 0x1000 ≤ x ∧ x < 0x1000 + 39 then (buildFrame s.params payload)[x - 0x1000]?
      else s.mem.read x := by
  rw [writeRequest, State.writeBytes_mem, State.writeBytes_mem, Memory.read_write, Memory.read_write, txb_toNat,
    payb_toNat, hlen, buildFrame_length _ hlen]
  by_cases hpayload : 0x5000 ≤ x ∧ x < 0x5000 + 19
  · rw [if_neg (by omega), if_pos hpayload, if_pos hpayload]
  · rw [if_neg hpayload, if_neg hpayload]

/-! ## BUILD_REQ -/

/-- Settles O23: the program's payload, with the meter's bytes written out, and what the two stores leave. -/
theorem buildReqWritesPayloadAndFrame : Obligations.BuildReqWritesPayloadAndFrame := by
  refine ⟨decode_encode .buildReq, fun s hidle => exec_idle_unchecked hidle rfl rfl, fun s hfresh => ?_⟩
  intro tmpl m body crc payload frame
  have hbody : payloadBody tmpl (m.extractLsb' 24 8) (m.extractLsb' 0 24) = body := payloadBody_meter tmpl m
  have hpayload : payloadOfMeter s.params m = payload := by rw [payloadOfMeter_eq, hbody]
  have htake : payload.take 17 = body := by rw [← hpayload, payloadOfMeter_take, hbody]
  have hlen : payload.length = 19 := hpayload ▸ payloadOfMeter_length s.params m
  have hprog : progOf .buildReq s = .done fun t =>
      ((writeRequest payload t).setResult0 39).setResult1 (crc.setWidth 32) := by
    rw [progOf, buildReqProg, hpayload, htake]
  refine ⟨hbody ▸ payloadBody_length _ _ _, hlen, buildFrame_length s.params hlen, _, exec_fresh_done hfresh hprog, ?_,
    fun x => writeRequest_read hlen s x⟩
  rw [State.complete_setResult01]
  rfl

/-! ## ENCODE -/

theorem encodeProg_eq {s : State}
    (hdst : writableRange (brefOf s.engine.args.a2) (encodedLength s.engine.args.a1.toNat) = true) :
    encodeProg s = readRange s (brefOf s.engine.args.a0) s.engine.args.a1.toNat fun bs =>
      .done fun t => (t.writeBytes (brefOf s.engine.args.a2) (encodeFrame bs)).setResult0
        (BitVec.ofNat 32 (encodedLength s.engine.args.a1.toNat)) :=
  if_pos hdst

/-- Settles O24: `State.judged_cons` for each check; then the source is read whole, and its frame stored or the read
faults. -/
theorem encodeFramesARange : Obligations.EncodeFramesARange := by
  refine ⟨decode_encode .encode, fun s hidle => ?idle, fun s hfresh => ?fresh⟩
  case idle =>
    refine exec_idle_judged hidle rfl rfl <| State.judged_cons ?_ fun _ => State.judged_cons decide_eq_true_iff fun _ =>
      State.judged_cons (.of_eq (Bool.not_eq_true' _)) fun _ =>
        State.judged_cons (.of_eq (Bool.not_eq_true' _)) fun _ => rfl
    rw [Bool.or_eq_true, not_brefOk_eq_true_iff, not_brefOk_eq_true_iff]
  case fresh =>
    intro src dst n m _ hsrc hdst
    refine ⟨fun bs hread => ?framed, fun hread => ?unwritten⟩
    case framed =>
      have hlen : (encodeFrame bs).length = m := by rw [encodeFrame_length, State.readBytes_length hread]; rfl
      refine ⟨hlen, _, exec_fresh_done (i := .encode) hfresh
        ((encodeProg_eq hdst).trans (readRange_of_some hsrc hread)), ?_, stored_write _ _ _⟩
      rw [State.complete_setResult0]
      rfl
    case unwritten =>
      have hprog : progOf .encode s = .stop .readUnwritten :=
        (encodeProg_eq hdst).trans (readRange_of_none hsrc hread)
      rw [exec_fresh hfresh, hprog, Prog.drive]

end Sys2Proof.Machine

/-! PROOFS. The decoder's samples, runs and logical bits (44_decoder.md R112 to R114, R119).

The decoder interleaves three passes: it groups samples into runs, divides the runs into logical bits, and reads bytes
off the bits. Here the passes are taken apart: the decoder is a fold of `takeBit` over the logical bits of the runs. -/

namespace Sys2Proof.Machine

/-! ## Samples -/

theorem samples_cons (b : Byte) (src : List Byte) : samples (b :: src) = byteSamples b ++ samples src :=
  List.flatMap_cons

theorem samples_append (xs ys : List Byte) : samples (xs ++ ys) = samples xs ++ samples ys :=
  List.flatMap_append

theorem sampleAt_cons_add (b : Byte) (src : List Byte) (i : Nat) : sampleAt (b :: src) (8 + i) = sampleAt src i := by
  rw [sampleAt, sampleAt, Nat.add_div_left i (by decide), Nat.add_mod_left, List.getD_cons_succ]

theorem sampleAt_cons_of_lt (b : Byte) (src : List Byte) {i : Nat} (h : i < 8) :
    sampleAt (b :: src) i = b.getLsbD (7 - i) := by
  rw [sampleAt, Nat.div_eq_of_lt h, Nat.mod_eq_of_lt h, List.getD_cons_zero]

/-- The scanning order of R112, place by place. -/
theorem samples_eq_map_sampleAt (src : List Byte) : samples src = (List.range (8 * src.length)).map (sampleAt src) := by
  induction src with
  | nil => rfl
  | cons b src ih =>
    have hfirst : (List.range 8).map (sampleAt (b :: src)) = byteSamples b :=
      List.map_congr_left fun i hi => sampleAt_cons_of_lt b src (List.mem_range.mp hi)
    have hrest : sampleAt (b :: src) ∘ (8 + ·) = sampleAt src := funext (sampleAt_cons_add b src)
    rw [samples_cons, ih, List.length_cons, Nat.mul_succ, Nat.add_comm, List.range_add, List.map_append, hfirst,
      List.map_map, hrest]

theorem samples_length (src : List Byte) : (samples src).length = 8 * src.length := by
  rw [samples_eq_map_sampleAt, List.length_map, List.length_range]

/-! ## Runs -/

/-- The runs of some samples that go on from a run of `c` samples of the level `lvl`. -/
def runsFrom (lvl : Bool) (c : Nat) : List Bool → List (Nat × Bool)
  | [] => [(c, lvl)]
  | x :: xs => if x = lvl then runsFrom lvl (c + 1) xs else (c, lvl) :: runsFrom x 1 xs

/-- The runs of some samples. -/
def runsOf : List Bool → List (Nat × Bool)
  | [] => []
  | x :: xs => runsFrom x 1 xs

theorem runsFrom_head_level (lvl : Bool) (c : Nat) (xs : List Bool) :
    ∃ n rest, runsFrom lvl c xs = (n, lvl) :: rest := by
  induction xs generalizing c with
  | nil => exact ⟨c, [], rfl⟩
  | cons x xs ih =>
    rw [runsFrom]
    split
    · exact ih (c + 1)
    · exact ⟨c, _, rfl⟩

theorem runsFrom_flatMap (lvl : Bool) (c : Nat) (xs : List Bool) :
    (runsFrom lvl c xs).flatMap (fun r => List.replicate r.1 r.2) = List.replicate c lvl ++ xs := by
  induction xs generalizing lvl c with
  | nil => simp [runsFrom]
  | cons x xs ih =>
    rw [runsFrom]
    split
    next h => rw [ih, h, List.replicate_succ', List.append_assoc, List.singleton_append]
    next h => rw [List.flatMap_cons, ih, List.replicate_one, List.singleton_append]

theorem runsFrom_pos {lvl : Bool} {c : Nat} (hc : 0 < c) (xs : List Bool) : ∀ r ∈ runsFrom lvl c xs, 0 < r.1 := by
  induction xs generalizing lvl c with
  | nil => exact List.forall_mem_singleton.mpr hc
  | cons x xs ih =>
    rw [runsFrom]
    split
    · exact ih (Nat.succ_pos c)
    · exact List.forall_mem_cons.mpr ⟨hc, ih Nat.one_pos⟩

theorem runsFrom_alternate (lvl : Bool) (c : Nat) (xs : List Bool) :
    (runsFrom lvl c xs).IsChain fun a b => a.2 ≠ b.2 := by
  induction xs generalizing lvl c with
  | nil => exact .singleton _
  | cons x xs ih =>
    rw [runsFrom]
    split
    · exact ih lvl (c + 1)
    next h =>
      have hchain := ih x 1
      obtain ⟨n, rest, hruns⟩ := runsFrom_head_level x 1 xs
      rw [hruns] at hchain ⊢
      exact .cons_cons (Ne.symm h) hchain

theorem runsOf_correct (xs : List Bool) : RunsOf xs (runsOf xs) := by
  cases xs with
  | nil => exact ⟨rfl, List.forall_mem_nil _, fun i _ _ h => absurd h (by simp [runsOf])⟩
  | cons x xs =>
    refine ⟨runsFrom_flatMap x 1 xs, runsFrom_pos Nat.one_pos xs, fun i a b ha hb => ?_⟩
    obtain ⟨hlt, hb⟩ := List.getElem?_eq_some_iff.mp hb
    obtain ⟨_, ha⟩ := List.getElem?_eq_some_iff.mp ha
    rw [← ha, ← hb]
    exact List.isChain_iff_getElem.mp (runsFrom_alternate x 1 xs) i hlt

/-! ## Logical bits -/

/-- `k` logical bits take `4 * k` samples, up to the remainder at the end (44_decoder.md R114). -/
theorem quantised_length_le {rem : Int} (hlow : -2 ≤ rem) {runs : List (Nat × Bool)} (hpos : ∀ r ∈ runs, 0 < r.1) :
    4 * ((quantised rem runs).length : Int) ≤
      (runs.flatMap fun r => List.replicate r.1 r.2).length + rem + 2 := by
  induction runs generalizing rem with
  | nil =>
    simp only [quantised, List.flatMap_nil, List.length_nil]
    omega
  | cons r runs ih =>
    obtain ⟨hr, hruns⟩ := List.forall_mem_cons.mp hpos
    have htail := ih (rem := r.1 + rem - 4 * ((r.1 + rem + 2) / 4)) (by omega) hruns
    rw [quantised, List.length_append, List.length_replicate, List.flatMap_cons, List.length_append,
      List.length_replicate]
    push_cast
    omega

/-- One logical bit of a decoder that goes on until it stops. -/
def takeBit (d : Decoder) (b : Bool) : Decoder := if d.stopped then d else logicalBit b d

theorem takeBit_stopped {d : Decoder} (h : d.stopped = true) (b : Bool) : takeBit d b = d := if_pos h

theorem takeBit_running {d : Decoder} (h : d.stopped = false) (b : Bool) : takeBit d b = logicalBit b d :=
  if_neg (Bool.eq_false_iff.mp h)

theorem foldl_takeBit_stopped {d : Decoder} (h : d.stopped = true) (bits : List Bool) : bits.foldl takeBit d = d :=
  List.foldl_fixed' (takeBit_stopped h) bits

theorem logicalBits_eq_foldl {d : Decoder} (h : d.stopped = false) (k : Nat) (lvl : Bool) :
    logicalBits k lvl d = (List.replicate k lvl).foldl takeBit d := by
  induction k generalizing d with
  | zero => rfl
  | succ k ih =>
    rw [logicalBits, List.replicate_succ, List.foldl_cons, takeBit_running h]
    split
    next hstop => exact (foldl_takeBit_stopped hstop _).symm
    next hgo => exact ih (Bool.eq_false_iff.mpr hgo)

/-- A decoder with another current run and remainder. No logical bit looks at these. -/
def Decoder.withRun (d : Decoder) (pol : Bool) (run : Nat) (rem : Int) : Decoder :=
  { d with pol := pol, run := run, rem := rem }

@[simp] theorem Decoder.withRun_stopped (d : Decoder) (pol : Bool) (run : Nat) (rem : Int) :
    (d.withRun pol run rem).stopped = d.stopped := rfl

theorem logicalBit_withRun (d : Decoder) (pol : Bool) (run : Nat) (rem : Int) (b : Bool) :
    logicalBit b (d.withRun pol run rem) = (logicalBit b d).withRun pol run rem := by
  simp only [logicalBit, apply_ite (Decoder.withRun · pol run rem)]
  rfl

theorem takeBit_withRun (d : Decoder) (pol : Bool) (run : Nat) (rem : Int) (b : Bool) :
    takeBit (d.withRun pol run rem) b = (takeBit d b).withRun pol run rem := by
  rw [takeBit, takeBit, Decoder.withRun_stopped]
  split
  · rfl
  · exact logicalBit_withRun d pol run rem b

theorem foldl_takeBit_withRun (d : Decoder) (pol : Bool) (run : Nat) (rem : Int) (bits : List Bool) :
    bits.foldl takeBit (d.withRun pol run rem) = (bits.foldl takeBit d).withRun pol run rem := by
  induction bits generalizing d with
  | nil => rfl
  | cons b bits ih => rw [List.foldl_cons, takeBit_withRun, ih, List.foldl_cons]

/-! ## The decoder as a fold over the logical bits -/

theorem flushRun_eq {d : Decoder} (h : d.stopped = false) :
    flushRun d = ((List.replicate (runBits d.run d.rem).toNat d.pol).foldl takeBit d).withRun d.pol d.run
      (d.run + d.rem - 4 * runBits d.run d.rem) := by
  rw [← foldl_takeBit_withRun]
  exact logicalBits_eq_foldl (d := d.withRun d.pol d.run (d.run + d.rem - 4 * runBits d.run d.rem)) h _ _

/-- The last run's end (44_decoder.md R119). -/
def flushLast (d : Decoder) : Decoder := if d.stopped then d else flushRun d

theorem takeSample_stopped {d : Decoder} (h : d.stopped = true) (x : Bool) : takeSample d x = d := if_pos h

theorem foldl_takeSample_stopped {d : Decoder} (h : d.stopped = true) (xs : List Bool) : xs.foldl takeSample d = d :=
  List.foldl_fixed' (takeSample_stopped h) xs

theorem takeSample_same {d : Decoder} (h : d.stopped = false) {x : Bool} (hx : x = d.pol) :
    takeSample d x = d.withRun d.pol (d.run + 1) d.rem := by
  rw [takeSample, if_neg (Bool.eq_false_iff.mp h), if_pos hx]
  rfl

/-- A sample of the other level flushes the run; where the flush stops the decoder the new run is never looked at. -/
theorem takeSample_other {d : Decoder} (h : d.stopped = false) {x : Bool} (hx : x ≠ d.pol) :
    takeSample d x = if (flushRun d).stopped then flushRun d else (flushRun d).withRun x 1 (flushRun d).rem := by
  rw [takeSample, if_neg (Bool.eq_false_iff.mp h), if_neg hx]
  rfl

/-- Equal but for the current run, which the decoder's answer does not hold. -/
def SameBytes (d e : Decoder) : Prop := ∃ pol run rem, d = e.withRun pol run rem

theorem SameBytes.refl (d : Decoder) : SameBytes d d := ⟨d.pol, d.run, d.rem, rfl⟩

theorem SameBytes.withRun (d : Decoder) (pol : Bool) (run : Nat) (rem : Int) : SameBytes (d.withRun pol run rem) d :=
  ⟨pol, run, rem, rfl⟩

theorem SameBytes.trans {d e f : Decoder} (hde : SameBytes d e) (hef : SameBytes e f) : SameBytes d f := by
  obtain ⟨pol, run, rem, rfl⟩ := hde
  obtain ⟨_, _, _, rfl⟩ := hef
  exact ⟨pol, run, rem, rfl⟩

theorem quantised_cons (rem : Int) (c : Nat) (lvl : Bool) (rest : List (Nat × Bool)) :
    quantised rem ((c, lvl) :: rest) =
      List.replicate (runBits c rem).toNat lvl ++ quantised (c + rem - 4 * runBits c rem) rest := rfl

/-- The three passes taken apart, from any decoder on. -/
theorem foldl_takeSample_sameBytes (xs : List Bool) {d : Decoder} (h : d.stopped = false) :
    SameBytes (flushLast (xs.foldl takeSample d)) ((quantised d.rem (runsFrom d.pol d.run xs)).foldl takeBit d) := by
  induction xs generalizing d with
  | nil =>
    rw [List.foldl_nil, flushLast, if_neg (Bool.eq_false_iff.mp h), flushRun_eq h, runsFrom, quantised_cons, quantised,
      List.append_nil]
    exact .withRun _ _ _ _
  | cons x xs ih =>
    rw [List.foldl_cons, runsFrom]
    by_cases hx : x = d.pol
    · have hrest := ih (d := d.withRun d.pol (d.run + 1) d.rem) h
      rw [foldl_takeBit_withRun] at hrest
      rw [if_pos hx, takeSample_same h hx]
      exact hrest.trans (.withRun _ _ _ _)
    · rw [if_neg hx, takeSample_other h hx, flushRun_eq h, quantised_cons, List.foldl_append]
      generalize (List.replicate (runBits d.run d.rem).toNat d.pol).foldl takeBit d = e
      rw [Decoder.withRun_stopped]
      split
      next hstop =>
        have hflushed : (e.withRun d.pol d.run (d.run + d.rem - 4 * runBits d.run d.rem)).stopped = true := hstop
        rw [foldl_takeSample_stopped hflushed, foldl_takeBit_stopped hstop, flushLast, if_pos hflushed]
        exact .withRun _ _ _ _
      next hgo =>
        have hrest := ih (d := e.withRun x 1 (d.run + d.rem - 4 * runBits d.run d.rem)) (Bool.eq_false_iff.mpr hgo)
        rw [foldl_takeBit_withRun] at hrest
        exact hrest.trans (.withRun _ _ _ _)

/-- The logical bits of a captured stream (44_decoder.md R112, R114). -/
def bitsOf (src : List Byte) : List Bool := quantised 0 (runsOf (samples src))

/-- `Decode` reads the logical bits, one after the other (44_decoder.md R113). -/
theorem decodeRun_sameBytes (src : List Byte) (cap : Nat) :
    SameBytes (decodeRun src cap) ((bitsOf src).foldl takeBit (decoderStart false cap)) := by
  unfold decodeRun bitsOf
  cases samples src with
  | nil => exact .refl _
  | cons x xs =>
    have hfirst : takeSample (decoderStart x cap) x = (decoderStart false cap).withRun x 1 0 := takeSample_same rfl rfl
    have hbytes := foldl_takeSample_sameBytes xs (d := (decoderStart false cap).withRun x 1 0) rfl
    rw [foldl_takeBit_withRun] at hbytes
    simp only [List.foldl_cons, hfirst]
    exact hbytes.trans (.withRun _ _ _ _)

end Sys2Proof.Machine

/-! PROOFS. What a decoder has read: the invariant of the bit level (44_decoder.md R115 to R118, R120). -/

namespace Sys2Proof.Machine

/-! ## One logical bit, by the position it finds -/

section
variable {d : Decoder} {b : Bool}

theorem logicalBit_first (h : d.pos = 0) : logicalBit b d = { d with pos := 1 } := by
  simp [logicalBit, h]

theorem logicalBit_data (hlow : 1 ≤ d.pos) (hhigh : d.pos ≤ 8) :
    logicalBit b d = { d with
      pos := d.pos + 1, dst := d.dst.modify d.idx fun x => (if b then 0x80#8 else 0#8) ||| (x >>> 1) } := by
  have hpos : min (d.pos + 1) 255 = d.pos + 1 := by omega
  rw [logicalBit]
  simp only [hpos]
  rw [if_neg (by omega), if_neg (by omega), if_pos (by omega)]

theorem logicalBit_violation (h : d.pos = 9) : logicalBit false d = { d with pos := 10, stopped := true } := by
  simp [logicalBit, h]

theorem logicalBit_next (h : 10 ≤ d.pos) : logicalBit false d = { d with pos := 1, idx := d.idx + 1 } := by
  rw [logicalBit, if_neg (by omega), if_pos ⟨by omega, rfl⟩, if_neg (by omega)]

theorem logicalBit_idle (h : 9 ≤ d.pos) : logicalBit true d = { d with pos := min (d.pos + 1) 255 } := by
  rw [logicalBit, if_neg (by simp), if_neg (by simp), if_neg (by omega)]

end

/-! ## More bits -/

theorem getElem?_append_of_eq_some {α : Type} {xs : List α} {i : Nat} {a : α} (h : xs[i]? = some a) (ys : List α) :
    (xs ++ ys)[i]? = some a := by
  rw [List.getElem?_append_left (List.getElem?_eq_some_iff.mp h).1, h]

/-- A byte whose data bits have all come does not change. -/
theorem byteFrom_append {bits : List Bool} {f : Nat} {x : Byte} (hdata : f + 9 ≤ bits.length) (more : List Bool)
    (h : byteFrom bits f x) : byteFrom (bits ++ more) f x := by
  intro t ht
  have hn : min 8 ((bits ++ more).length - (f + 1)) = min 8 (bits.length - (f + 1)) := by
    rw [List.length_append]
    omega
  rw [hn, List.getD_append _ _ _ _ (by omega)]
  exact h t ht

/-- Before its data bits a byte is 0. -/
theorem byteFrom_iff_eq_zero {bits : List Bool} {f : Nat} {x : Byte} (h : bits.length ≤ f + 1) :
    byteFrom bits f x ↔ x = 0 := by
  have hn : min 8 (bits.length - (f + 1)) = 0 := by omega
  constructor
  · intro hx
    refine BitVec.eq_of_getLsbD_eq fun t ht => ?_
    rw [hx t ht, if_neg (by omega)]
    exact BitVec.getLsbD_zero.symm
  · rintro rfl t ht
    rw [if_neg (by omega)]
    exact BitVec.getLsbD_zero

theorem topBit_getLsbD (b : Bool) {t : Nat} (ht : t < 8) :
    (if b then 0x80#8 else 0#8).getLsbD t = (decide (t = 7) && b) := by
  revert t
  cases b <;> decide

/-- A data bit comes in at the top, and what came before moves down (44_decoder.md R115). -/
theorem byteFrom_shiftIn {bits : List Bool} {f : Nat} {x : Byte} (hlow : f + 1 ≤ bits.length)
    (hhigh : bits.length < f + 9) (h : byteFrom bits f x) (b : Bool) :
    byteFrom (bits ++ [b]) f ((if b then 0x80#8 else 0#8) ||| (x >>> 1)) := by
  intro t ht
  have hn : min 8 ((bits ++ [b]).length - (f + 1)) = bits.length - f := by
    rw [List.length_append, List.length_singleton]
    omega
  rw [hn]
  rw [BitVec.getLsbD_or, topBit_getLsbD b ht, BitVec.getLsbD_ushiftRight]
  by_cases htop : t = 7
  · have hx : x.getLsbD (1 + t) = false := x.getLsbD_of_ge _ (by omega)
    have hplace : f + 1 + (t - (8 - (bits.length - f))) = bits.length := by omega
    rw [hx, if_pos (by omega), hplace, List.getD_eq_getElem?_getD, List.getElem?_concat_length]
    simp [htop]
  · rw [decide_eq_false htop, Bool.false_and, Bool.false_or, h (1 + t) (by omega)]
    by_cases hin : 8 - (bits.length - f) ≤ t
    · rw [if_pos hin, if_pos (by omega), List.getD_append _ _ _ _ (by omega)]
      congr 1
      omega
    · rw [if_neg hin, if_neg (by omega)]

/-- A byte is followed by a set stop bit, and the next one begins with the first clear bit after it
(44_decoder.md R116, R117): the part of `ByteStarts` that is about two bytes. -/
def LinkedStarts (bits : List Bool) (starts : List Nat) : Prop :=
  ∀ j f g, starts[j]? = some f → starts[j + 1]? = some g →
    f + 10 ≤ g ∧ bits[f + 9]? = some true ∧ bits[g]? = some false ∧ ∀ i, f + 10 ≤ i → i < g → bits[i]? = some true

theorem LinkedStarts.append {bits : List Bool} {starts : List Nat} (h : LinkedStarts bits starts) (more : List Bool) :
    LinkedStarts (bits ++ more) starts := by
  intro j f g hf hg
  obtain ⟨hle, hstop, hstart, hidle⟩ := h j f g hf hg
  exact ⟨hle, getElem?_append_of_eq_some hstop more, getElem?_append_of_eq_some hstart more, fun i hlow hhigh =>
    getElem?_append_of_eq_some (hidle i hlow hhigh) more⟩

/-- Every byte but the last has all its data bits. -/
theorem LinkedStarts.data_le {bits : List Bool} {starts : List Nat} (h : LinkedStarts bits starts) {j f : Nat}
    (hf : starts[j]? = some f) (hj : j + 1 < starts.length) : f + 9 ≤ bits.length := by
  obtain ⟨_, hstop, _⟩ := h j f _ hf (List.getElem?_eq_getElem hj)
  exact (List.getElem?_eq_some_iff.mp hstop).1.le

theorem LinkedStarts.concat {bits : List Bool} {starts : List Nat} (h : LinkedStarts bits starts) {f g n : Nat}
    (hlen : starts.length = n + 1) (hlast : starts[n]? = some f) (hle : f + 10 ≤ g) (hstart : bits[g]? = some false)
    (hset : ∀ i, f + 9 ≤ i → i < g → bits[i]? = some true) : LinkedStarts bits (starts ++ [g]) := by
  intro j f' g' hf' hg'
  have hj : j + 1 < (starts ++ [g]).length := (List.getElem?_eq_some_iff.mp hg').1
  rw [List.length_append, List.length_singleton] at hj
  rw [List.getElem?_append_left (by omega)] at hf'
  by_cases hold : j + 1 < starts.length
  · rw [List.getElem?_append_left hold] at hg'
    exact h j f' g' hf' hg'
  · obtain rfl : j = n := by omega
    rw [← hlen, List.getElem?_concat_length] at hg'
    obtain rfl : f' = f := Option.some.inj (hf'.symm.trans hlast)
    obtain rfl : g = g' := Option.some.inj hg'
    exact ⟨hle, hset _ (by omega) (by omega), hstart, fun i hlow hhigh => hset i (by omega) hhigh⟩

/-! ## The invariant -/

/-- The decoder `d` has read the logical bits `bits`, with the bytes that begin at `starts`. -/
structure HasRead (bits : List Bool) (starts : List Nat) (d : Decoder) : Prop where
  byteStarts : ByteStarts bits starts d.stopped
  count : starts.length = d.idx + 1
  bytes : ∀ (j f : Nat) (x : Byte), starts[j]? = some f → d.dst[j]? = some x → byteFrom bits f x
  later : ∀ (j : Nat) (x : Byte), d.idx < j → d.dst[j]? = some x → x = 0

/-- The decoder has not stopped, the byte in progress begins at `f`, and the position counts the bits from there
(44_decoder.md R115). -/
structure AtByte (bits : List Bool) (starts : List Nat) (f : Nat) (d : Decoder) : Prop where
  running : d.stopped = false
  current : starts[d.idx]? = some f
  begun : f ≤ bits.length
  pos : d.pos = min (bits.length - f) 255

section
variable {bits : List Bool} {starts : List Nat} {d e : Decoder} {f : Nat} {b : Bool}

theorem HasRead.linked (h : HasRead bits starts d) : LinkedStarts bits starts := h.byteStarts.2.1

theorem HasRead.getLast? (h : HasRead bits starts d) : starts.getLast? = starts[d.idx]? := by
  rw [List.getLast?_eq_getElem?, h.count, Nat.add_sub_cancel]

theorem HasRead.last (h : HasRead bits starts d) (hf : starts[d.idx]? = some f) :
    if d.stopped then bits[f + 9]? = some false else ∀ i, f + 9 ≤ i → bits[i]? ≠ some false :=
  h.byteStarts.2.2 f (h.getLast?.trans hf)

theorem HasRead.le_idx (h : HasRead bits starts d) {j f : Nat} (hf : starts[j]? = some f) : j ≤ d.idx := by
  have hlt : j < starts.length := (List.getElem?_eq_some_iff.mp hf).1
  rw [h.count] at hlt
  exact Nat.le_of_lt_succ hlt

/-- A byte before the one in progress stays as it is. -/
theorem HasRead.earlier (h : HasRead bits starts d) {j f : Nat} {x : Byte} (hj : j < d.idx) (hf : starts[j]? = some f)
    (hx : d.dst[j]? = some x) (more : List Bool) : byteFrom (bits ++ more) f x :=
  byteFrom_append (h.linked.data_le hf (by rw [h.count]; omega)) more (h.bytes j f x hf hx)

theorem AtByte.no_clear (hat : AtByte bits starts f d) (h : HasRead bits starts d) {i : Nat} (hi : f + 9 ≤ i) :
    bits[i]? ≠ some false := by
  have hlast := h.last hat.current
  rw [hat.running] at hlast
  exact hlast i hi

/-- No byte changes any more once the one in progress has its data bits. -/
theorem HasRead.bytes_append (h : HasRead bits starts d) (hcurrent : starts[d.idx]? = some f)
    (hdata : f + 9 ≤ bits.length) (more : List Bool) {j f' : Nat} {x : Byte} (hf' : starts[j]? = some f')
    (hx : d.dst[j]? = some x) : byteFrom (bits ++ more) f' x := by
  rcases Nat.lt_or_eq_of_le (h.le_idx hf') with hj | rfl
  · exact h.earlier hj hf' hx more
  · obtain rfl : f = f' := Option.some.inj (hcurrent.symm.trans hf')
    exact byteFrom_append hdata more (h.bytes _ f x hf' hx)

/-- A decoder that has stopped reads no further. -/
theorem HasRead.append_of_stopped (h : HasRead bits starts d) (hstop : d.stopped = true) (more : List Bool) :
    HasRead (bits ++ more) starts d := by
  obtain ⟨hfirst, _, hlast⟩ := h.byteStarts
  rw [hstop] at hlast
  obtain ⟨f, hcurrent⟩ : ∃ f, starts[d.idx]? = some f := ⟨_, List.getElem?_eq_getElem (by rw [h.count]; omega)⟩
  have hviolation : bits[f + 9]? = some false := hlast f (h.getLast?.trans hcurrent)
  refine ⟨⟨hfirst, h.linked.append more, fun f' hf' => ?_⟩, h.count, fun _ _ _ => ?_, h.later⟩
  · rw [hstop]
    exact getElem?_append_of_eq_some (hlast f' hf') more
  · exact h.bytes_append hcurrent (List.getElem?_eq_some_iff.mp hviolation).1.le more

/-- What a bit keeps that goes to the byte in progress or is a set bit behind it. -/
theorem HasRead.concat_of_same_byte (h : HasRead bits starts d) (hat : AtByte bits starts f d)
    (hset : f + 9 ≤ bits.length → b = true) (hrunning : e.stopped = false) (hidx : e.idx = d.idx)
    (hdst : ∀ j, j ≠ d.idx → e.dst[j]? = d.dst[j]?)
    (hbyte : ∀ x, e.dst[d.idx]? = some x → byteFrom (bits ++ [b]) f x) : HasRead (bits ++ [b]) starts e where
  byteStarts := by
    refine ⟨h.byteStarts.1, h.linked.append [b], fun f' hf' => ?_⟩
    obtain rfl : f = f' := Option.some.inj (hat.current.symm.trans (h.getLast?.symm.trans hf'))
    rw [hrunning]
    intro i hi
    rcases Nat.lt_trichotomy i bits.length with hlt | rfl | hgt
    · rw [List.getElem?_append_left hlt]
      exact hat.no_clear h hi
    · rw [List.getElem?_concat_length, hset hi]
      decide
    · rw [List.getElem?_eq_none (by rw [List.length_append, List.length_singleton]; omega)]
      exact (Option.some_ne_none _).symm
  count := by rw [hidx, h.count]
  bytes j f' x hf' hx := by
    rcases Nat.lt_or_eq_of_le (h.le_idx hf') with hj | rfl
    · exact h.earlier hj hf' (hdst j hj.ne ▸ hx) [b]
    · obtain rfl : f = f' := Option.some.inj (hat.current.symm.trans hf')
      exact hbyte x hx
  later j x hj hx := by
    rw [hidx] at hj
    exact h.later j x hj (hdst j hj.ne' ▸ hx)

/-- The first bit, whatever its level (44_decoder.md R118). -/
theorem HasRead.concat_first (h : HasRead bits starts d) (hat : AtByte bits starts f d) (hlen : bits.length ≤ f) :
    HasRead (bits ++ [b]) starts { d with pos := 1 } :=
  h.concat_of_same_byte hat (fun hdata => by omega) hat.running rfl (fun _ _ => rfl) fun x hx => by
    have hzero : x = 0 := (byteFrom_iff_eq_zero (by omega)).mp (h.bytes _ f x hat.current hx)
    exact (byteFrom_iff_eq_zero (by rw [List.length_append, List.length_singleton]; omega)).mpr hzero

/-- A data bit (44_decoder.md R115). -/
theorem HasRead.concat_data (h : HasRead bits starts d) (hat : AtByte bits starts f d) (hlow : f + 1 ≤ bits.length)
    (hhigh : bits.length < f + 9) : HasRead (bits ++ [b]) starts { d with
      pos := d.pos + 1, dst := d.dst.modify d.idx fun x => (if b then 0x80#8 else 0#8) ||| (x >>> 1) } :=
  h.concat_of_same_byte hat (fun hdata => by omega) hat.running rfl (fun _ hj => List.getElem?_modify_ne _ _ hj.symm)
    fun x hx => by
      rw [List.getElem?_modify_eq] at hx
      obtain ⟨y, hy, rfl⟩ := Option.map_eq_some_iff.mp hx
      exact byteFrom_shiftIn hlow hhigh (h.bytes _ f y hat.current hy) b

/-- A set bit behind the data bits: a stop bit or idle level (44_decoder.md R117). -/
theorem HasRead.concat_idle (h : HasRead bits starts d) (hat : AtByte bits starts f d) (hlen : f + 9 ≤ bits.length) :
    HasRead (bits ++ [true]) starts { d with pos := min (d.pos + 1) 255 } :=
  h.concat_of_same_byte hat (fun _ => rfl) hat.running rfl (fun _ _ => rfl) fun _ hx =>
    h.bytes_append hat.current hlen [true] hat.current hx

/-- A clear stop bit (44_decoder.md R116). -/
theorem HasRead.concat_violation (h : HasRead bits starts d) (hat : AtByte bits starts f d)
    (hlen : f + 9 = bits.length) : HasRead (bits ++ [false]) starts { d with pos := 10, stopped := true } where
  byteStarts := by
    refine ⟨h.byteStarts.1, h.linked.append [false], fun f' hf' => ?_⟩
    obtain rfl : f = f' := Option.some.inj (hat.current.symm.trans (h.getLast?.symm.trans hf'))
    rw [if_pos rfl, hlen, List.getElem?_concat_length]
  count := h.count
  bytes _ _ _ := h.bytes_append hat.current hlen.le [false]
  later := h.later

/-- The next byte's beginning (44_decoder.md R117). -/
theorem HasRead.concat_next (h : HasRead bits starts d) (hat : AtByte bits starts f d) (hlen : f + 10 ≤ bits.length) :
    HasRead (bits ++ [false]) (starts ++ [bits.length]) { d with pos := 1, idx := d.idx + 1 } where
  byteStarts := by
    refine ⟨?first, ?linked, fun g hg => ?last⟩
    case first => exact getElem?_append_of_eq_some h.byteStarts.1 [bits.length]
    case linked =>
      refine (h.linked.append [false]).concat h.count hat.current hlen List.getElem?_concat_length
        fun i hlow hhigh => ?_
      have hset := hat.no_clear h hlow
      rw [List.getElem?_append_left hhigh]
      rw [List.getElem?_eq_getElem hhigh] at hset ⊢
      cases hi : bits[i] with
      | true => rfl
      | false => exact absurd (congrArg some hi) hset
    case last =>
      obtain rfl : bits.length = g := Option.some.inj (List.getLast?_concat.symm.trans hg)
      rw [hat.running]
      intro i hi
      rw [List.getElem?_eq_none (by rw [List.length_append, List.length_singleton]; omega)]
      exact (Option.some_ne_none _).symm
  count := by rw [List.length_append, List.length_singleton, h.count]
  bytes j g x hg hx := by
    by_cases hj : j < starts.length
    · rw [List.getElem?_append_left hj] at hg
      exact h.bytes_append hat.current (by omega) [false] hg hx
    · have hj' : j < (starts ++ [bits.length]).length := (List.getElem?_eq_some_iff.mp hg).1
      rw [List.length_append, List.length_singleton] at hj'
      obtain rfl : j = starts.length := by omega
      obtain rfl : bits.length = g := Option.some.inj (List.getElem?_concat_length.symm.trans hg)
      rw [h.later _ x (by rw [h.count]; omega) hx]
      exact (byteFrom_iff_eq_zero (by rw [List.length_append, List.length_singleton])).mpr rfl
  later j x hj hx := h.later j x (Nat.lt_of_succ_lt hj) hx

/-- The invariant: what has been read, and where the decoder stands in it. -/
def Follows (bits : List Bool) (starts : List Nat) (d : Decoder) : Prop :=
  HasRead bits starts d ∧ (d.stopped = false → ∃ f, AtByte bits starts f d)

theorem AtByte.concat_same_byte (hat : AtByte bits starts f d) (hrunning : e.stopped = false) (hidx : e.idx = d.idx)
    (hpos : e.pos = min (d.pos + 1) 255) : AtByte (bits ++ [b]) starts f e where
  running := hrunning
  current := hidx ▸ hat.current
  begun := by have := hat.begun; rw [List.length_append]; omega
  pos := by
    have hbegun := hat.begun
    rw [hpos, hat.pos, List.length_append, List.length_singleton]
    omega

theorem AtByte.concat_next (hat : AtByte bits starts f d) (h : HasRead bits starts d) :
    AtByte (bits ++ [false]) (starts ++ [bits.length]) bits.length { d with pos := 1, idx := d.idx + 1 } where
  running := hat.running
  current := by
    change (starts ++ [bits.length])[d.idx + 1]? = _
    rw [← h.count, List.getElem?_concat_length]
  begun := by rw [List.length_append]; omega
  pos := by simp

/-- One logical bit, by the position it finds: before the first bit, among the data bits, at the stop bit, behind it. -/
theorem Follows.takeBit (h : Follows bits starts d) (b : Bool) :
    ∃ starts', Follows (bits ++ [b]) starts' (takeBit d b) := by
  obtain ⟨hread, hat⟩ := h
  cases hstop : d.stopped with
  | true =>
    rw [takeBit_stopped hstop]
    exact ⟨starts, hread.append_of_stopped hstop [b], fun hgo => by rw [hstop] at hgo; cases hgo⟩
  | false =>
    obtain ⟨f, hat⟩ := hat hstop
    have hpos := hat.pos
    have hbegun := hat.begun
    rw [takeBit_running hstop]
    rcases Nat.lt_or_ge d.pos 9 with hdata | hstopBit
    · rcases Nat.eq_zero_or_pos d.pos with hzero | hstarted
      · rw [logicalBit_first hzero]
        exact ⟨starts, hread.concat_first hat (by omega), fun _ =>
          ⟨f, hat.concat_same_byte hstop rfl (by rw [hzero]; rfl)⟩⟩
      · rw [logicalBit_data hstarted (by omega)]
        exact ⟨starts, hread.concat_data hat (by omega) (by omega), fun _ =>
          ⟨f, hat.concat_same_byte hstop rfl (by simp only; omega)⟩⟩
    · cases b with
      | true =>
        rw [logicalBit_idle hstopBit]
        exact ⟨starts, hread.concat_idle hat (by omega), fun _ => ⟨f, hat.concat_same_byte hstop rfl rfl⟩⟩
      | false =>
        rcases Nat.eq_or_lt_of_le hstopBit with hnine | hbehind
        · rw [logicalBit_violation hnine.symm]
          exact ⟨starts, hread.concat_violation hat (by omega), fun hgo => by cases hgo⟩
        · rw [logicalBit_next hbehind]
          exact ⟨_, hread.concat_next hat (by omega), fun _ => ⟨_, hat.concat_next hread⟩⟩

end

theorem follows_decoderStart (first : Bool) (cap : Nat) : Follows [] [0] (decoderStart first cap) := by
  have hdst : ∀ (j : Nat) (x : Byte), (decoderStart first cap).dst[j]? = some x → x = 0 := fun j x hx =>
    (List.mem_replicate.mp (List.mem_of_getElem? hx)).2
  refine ⟨⟨⟨rfl, ?linked, ?last⟩, rfl, fun j f x _ hx => ?bytes, fun j x _ => hdst j x⟩,
    fun _ => ⟨0, rfl, rfl, le_rfl, rfl⟩⟩
  case linked => exact fun j f g _ hg => by simp at hg
  case last => exact fun f _ i _ => by simp
  case bytes => exact (byteFrom_iff_eq_zero (Nat.zero_le _)).mpr (hdst j x hx)

theorem follows_foldl_takeBit (first : Bool) (cap : Nat) (bits : List Bool) :
    ∃ starts, Follows bits starts (bits.foldl takeBit (decoderStart first cap)) := by
  induction bits using List.reverseRecOn with
  | nil => exact ⟨[0], follows_decoderStart first cap⟩
  | append_singleton bits b ih =>
    obtain ⟨starts, hfollows⟩ := ih
    rw [List.foldl_append]
    exact hfollows.takeBit b

/-- What the decoder has read does not hold its current run. -/
theorem HasRead.of_sameBytes {bits : List Bool} {starts : List Nat} {d e : Decoder} (h : HasRead bits starts e)
    (hde : SameBytes d e) : HasRead bits starts d := by
  obtain ⟨_, _, _, rfl⟩ := hde
  exact ⟨h.byteStarts, h.count, h.bytes, h.later⟩

/-- The whole decode, from its logical bits to its bytes (44_decoder.md R113). -/
theorem decodeRun_hasRead (src : List Byte) (cap : Nat) :
    ∃ starts, HasRead (bitsOf src) starts (decodeRun src cap) := by
  obtain ⟨starts, hread, _⟩ := follows_foldl_takeBit false cap (bitsOf src)
  exact ⟨starts, hread.of_sameBytes (decodeRun_sameBytes src cap)⟩

end Sys2Proof.Machine

/-! PROOFS. The decoder by its rules, its bound, and the round trip with the framer (44_decoder.md R112 to R122). -/

namespace Sys2Proof.Machine

/-! ## The decoder by its rules -/

theorem HasRead.later_eq_zero {bits : List Bool} {starts : List Nat} {d : Decoder} (h : HasRead bits starts d) {j : Nat}
    (hj : d.idx < j) (hcap : j < d.dst.length) : d.dst[j]? = some 0 := by
  rw [List.getElem?_eq_getElem hcap, h.later j _ hj (List.getElem?_eq_getElem hcap)]

/-- Settles O60: the runs are those of the samples, and the rest is what `HasRead` says of their logical bits. -/
theorem decodeReadsRunsAndBytes : Obligations.DecodeReadsRunsAndBytes := by
  refine ⟨fun _ => rfl, fun src cap _ => ?_⟩
  obtain ⟨starts, hread⟩ := decodeRun_hasRead src cap
  refine ⟨runsOf (samples src), starts, ?_, hread.byteStarts, hread.count.symm, hread.bytes, fun j hj hcap => ?_⟩
  · rw [← samples_eq_map_sampleAt]
    exact runsOf_correct _
  · exact hread.later_eq_zero hj (by rwa [← decodeSamples_dst_length src cap] at hcap)

/-! ## The bound -/

/-- No more logical bits than a quarter of the samples (44_decoder.md R114). -/
theorem bitsOf_length_le (src : List Byte) : (bitsOf src).length ≤ 2 * src.length := by
  obtain ⟨hsamples, hpos, _⟩ := runsOf_correct (samples src)
  have hquarter := quantised_length_le (rem := 0) (by decide) hpos
  rw [hsamples, samples_length] at hquarter
  rw [bitsOf]
  omega

/-- Two bytes begin at least ten bits apart (44_decoder.md R117, R121). -/
theorem ByteStarts.ten_mul_le {bits : List Bool} {starts : List Nat} {stopped : Bool}
    (h : ByteStarts bits starts stopped) {j f : Nat} (hf : starts[j]? = some f) : 10 * j ≤ f := by
  obtain ⟨_, hlinked, _⟩ := h
  induction j generalizing f with
  | zero => exact Nat.zero_le f
  | succ j ih =>
    have hj : j < starts.length := Nat.lt_of_succ_lt (List.getElem?_eq_some_iff.mp hf).1
    have hprevious := ih (List.getElem?_eq_getElem hj)
    obtain ⟨hgap, _⟩ := hlinked j _ f (List.getElem?_eq_getElem hj) hf
    omega

theorem HasRead.ten_mul_idx_lt {bits : List Bool} {starts : List Nat} {d : Decoder} (h : HasRead bits starts d)
    (hidx : d.idx ≠ 0) : 10 * d.idx < bits.length := by
  obtain ⟨j, hj⟩ := Nat.exists_eq_succ_of_ne_zero hidx
  have hlen := h.count
  obtain ⟨f, hf⟩ : ∃ f, starts[j]? = some f := ⟨_, List.getElem?_eq_getElem (by omega)⟩
  obtain ⟨g, hg⟩ : ∃ g, starts[j + 1]? = some g := ⟨_, List.getElem?_eq_getElem (by omega)⟩
  obtain ⟨_, _, hstart, _⟩ := h.linked j f g hf hg
  calc 10 * d.idx = 10 * (j + 1) := by rw [hj]
    _ ≤ g := h.byteStarts.ten_mul_le hg
    _ < bits.length := (List.getElem?_eq_some_iff.mp hstart).1

/-- Settles O31: bytes begin ten bits apart, and `R` captured bytes give at most `2 * R` bits. -/
theorem decodeStaysWithinItsBound : Obligations.DecodeStaysWithinItsBound := by
  intro src cap
  obtain ⟨starts, hread⟩ := decodeRun_hasRead src cap
  have hlen := decodeSamples_dst_length src cap
  refine ⟨?_, hlen, fun k hk hcap => hread.later_eq_zero hk (by rwa [← hlen] at hcap)⟩
  change (decodeRun src cap).idx ≤ _
  rcases Nat.eq_zero_or_pos (decodeRun src cap).idx with hzero | hpos
  · rw [hzero]
    exact Nat.zero_le _
  · have hlt := hread.ten_mul_idx_lt hpos.ne'
    have hbits := bitsOf_length_le src
    omega

/-! ## The round trip -/

theorem byteSamples_nibbles (x y : Bool) :
    byteSamples ((if x then 0xF else 0 : BitVec 4) ++ (if y then 0xF else 0 : BitVec 4)) =
      List.replicate 4 x ++ List.replicate 4 y := by
  cases x <;> cases y <;> rfl

theorem samples_over4Byte (b : Byte) : samples (over4Byte b) = (byteSamples b).flatMap (List.replicate 4) := by
  have hbits : byteSamples b = [b.getLsbD 7, b.getLsbD 6, b.getLsbD 5, b.getLsbD 4, b.getLsbD 3, b.getLsbD 2,
    b.getLsbD 1, b.getLsbD 0] := rfl
  simp only [over4Byte, samples, List.flatMap_cons, byteSamples_nibbles, hbits, List.append_assoc,
    List.flatMap_nil]

/-- Each bit of an oversampled stream is sampled four times (44_decoder.md R122). -/
theorem samples_over4 (bytes : List Byte) : samples (over4 bytes) = (samples bytes).flatMap (List.replicate 4) := by
  induction bytes with
  | nil => rfl
  | cons b bytes ih =>
    rw [over4, List.flatMap_cons, samples_append, samples_cons, List.flatMap_append, samples_over4Byte, ← ih, over4]

theorem runsFrom_replicate_append (lvl : Bool) (c n : Nat) (xs : List Bool) :
    runsFrom lvl c (List.replicate n lvl ++ xs) = runsFrom lvl (c + n) xs := by
  induction n generalizing c with
  | zero => rfl
  | succ n ih => rw [List.replicate_succ, List.cons_append, runsFrom, if_pos rfl, ih, Nat.add_right_comm, Nat.add_assoc]

theorem quantised_cons_four_mul (n : Nat) (lvl : Bool) (rest : List (Nat × Bool)) :
    quantised 0 ((4 * n, lvl) :: rest) = List.replicate n lvl ++ quantised 0 rest := by
  have hbits : runBits (4 * n) 0 = n := by rw [runBits]; omega
  have hrem : ((4 * n : Nat) : Int) + 0 - 4 * n = 0 := by omega
  rw [quantised_cons, hbits, hrem, Int.toNat_natCast]

/-- Runs that are multiples of 4 samples leave no remainder (44_decoder.md R122). -/
theorem quantised_runsFrom_oversampled (lvl : Bool) (n : Nat) (bits : List Bool) :
    quantised 0 (runsFrom lvl (4 * n) (bits.flatMap (List.replicate 4))) = List.replicate n lvl ++ bits := by
  induction bits generalizing lvl n with
  | nil => rw [List.flatMap_nil, runsFrom, quantised_cons_four_mul, quantised]
  | cons b bits ih =>
    rw [List.flatMap_cons]
    by_cases hb : b = lvl
    · subst hb
      rw [runsFrom_replicate_append, ← Nat.mul_succ, ih, List.replicate_succ', List.append_assoc, List.singleton_append]
    · rw [List.replicate_succ, List.cons_append, runsFrom, if_neg hb, runsFrom_replicate_append,
        quantised_cons_four_mul]
      exact congrArg (List.replicate n lvl ++ ·) (ih b 1)

/-- The decoder finds the bits of a clean fourfold capture (44_decoder.md R122). -/
theorem bitsOf_over4 (bytes : List Byte) : bitsOf (over4 bytes) = samples bytes := by
  rw [bitsOf, samples_over4]
  cases samples bytes with
  | nil => rfl
  | cons b bits =>
    rw [List.flatMap_cons, List.replicate_succ, List.cons_append, runsOf, runsFrom_replicate_append]
    exact quantised_runsFrom_oversampled b 1 bits

/-! ## The framed stream's bits -/

theorem encodeFrame_last (payload : List Byte) :
    (encodeFrame payload).getD ((encodeFrame payload).length - 1) 0 = 0xFF := by
  simp [encodeFrame, List.getD_eq_getElem?_getD]

theorem samples_encodeFrame_getElem? (payload : List Byte) {k : Nat} (hk : k < 8 * (encodeFrame payload).length) :
    (samples (encodeFrame payload))[k]? = some ((framedBits payload).getD k true) := by
  have hlen := encodeFrame_length payload
  rw [encodedLength] at hlen
  rw [samples_eq_map_sampleAt, List.getElem?_map, List.getElem?_range hk, Option.map_some, sampleAt]
  by_cases hbody : k < 8 * ((encodeFrame payload).length - 1)
  · rw [encodeFrame_getLsbD payload hbody]
  · have hplace : k / 8 = (encodeFrame payload).length - 1 := by omega
    have hset : ∀ i < 8, (0xFF : Byte).getLsbD i = true := by decide
    rw [hplace, encodeFrame_last, hset _ (by omega), framedBits_getD, if_pos (by omega)]

section
variable {payload : List Byte}

theorem frame_start_clear {j : Nat} (hj : j < payload.length) :
    (samples (encodeFrame payload))[12 * j]? = some false := by
  have hlen := encodeFrame_length payload
  rw [encodedLength] at hlen
  rw [samples_encodeFrame_getElem? payload (by omega), framedBits_getD, if_neg (by omega), if_pos (by omega)]

theorem frame_data {j t : Nat} (hj : j < payload.length) (ht : t < 8) :
    (samples (encodeFrame payload))[12 * j + 1 + t]? = some (payload[j].getLsbD t) := by
  have hlen := encodeFrame_length payload
  rw [encodedLength] at hlen
  have hplace : (12 * j + 1 + t) / 12 = j := by omega
  have hbit : (12 * j + 1 + t) % 12 - 1 = t := by omega
  rw [samples_encodeFrame_getElem? payload (by omega), framedBits_getD, if_neg (by omega), if_neg (by omega),
    if_pos (by omega), hplace, hbit, List.getD_eq_getElem _ _ hj]

/-- Stop bits, padding and the sentinel are set. -/
theorem frame_not_clear {k : Nat} (hk : 9 ≤ k % 12 ∨ 12 * payload.length - 3 ≤ k) :
    (samples (encodeFrame payload))[k]? ≠ some false := by
  by_cases hin : k < 8 * (encodeFrame payload).length
  · rw [samples_encodeFrame_getElem? payload hin, framedBits_getD]
    split
    · decide
    · rw [if_neg (by omega), if_neg (by omega)]
      decide
  · rw [List.getElem?_eq_none (by rw [samples_length]; omega)]
    exact (Option.some_ne_none _).symm

/-- The bytes of a framed stream begin twelve bits apart. -/
theorem ByteStarts.of_encodeFrame {starts : List Nat} {stopped : Bool} (hpayload : 1 ≤ payload.length)
    (h : ByteStarts (samples (encodeFrame payload)) starts stopped) {j f : Nat} (hf : starts[j]? = some f) :
    f = 12 * j ∧ j < payload.length := by
  obtain ⟨hfirst, hlinked, _⟩ := h
  induction j generalizing f with
  | zero => exact ⟨Option.some.inj (hf.symm.trans hfirst), hpayload⟩
  | succ j ih =>
    have hj : j < starts.length := Nat.lt_of_succ_lt (List.getElem?_eq_some_iff.mp hf).1
    obtain ⟨hprevious, hin⟩ := ih (List.getElem?_eq_getElem hj)
    obtain ⟨hgap, _, hclear, hidle⟩ := hlinked j _ f (List.getElem?_eq_getElem hj) hf
    have hplace : ¬(9 ≤ f % 12 ∨ 12 * payload.length - 3 ≤ f) := fun hk => frame_not_clear hk hclear
    have hnext : j + 1 < payload.length := by omega
    have hle : f ≤ 12 * (j + 1) := by
      by_contra hgt
      have hset := hidle (12 * (j + 1)) (by omega) (by omega)
      rw [frame_start_clear hnext] at hset
      cases hset
    exact ⟨by omega, hnext⟩

theorem HasRead.of_encodeFrame {starts : List Nat} {d : Decoder} (hpayload : 1 ≤ payload.length)
    (h : HasRead (samples (encodeFrame payload)) starts d) : d.idx + 1 = payload.length ∧ d.stopped = false := by
  obtain ⟨f, hf⟩ : ∃ f, starts[d.idx]? = some f := ⟨_, List.getElem?_eq_getElem (by rw [h.count]; omega)⟩
  obtain ⟨rfl, hin⟩ := h.byteStarts.of_encodeFrame hpayload hf
  have hlast := h.last hf
  cases hstop : d.stopped with
  | true =>
    rw [hstop] at hlast
    exact absurd hlast (frame_not_clear (by omega))
  | false =>
    rw [hstop] at hlast
    refine ⟨?_, rfl⟩
    by_contra hmore
    exact hlast (12 * (d.idx + 1)) (by omega) (frame_start_clear (by omega))

theorem HasRead.byte_of_encodeFrame {starts : List Nat} {d : Decoder} (hpayload : 1 ≤ payload.length)
    (h : HasRead (samples (encodeFrame payload)) starts d) {j : Nat} (hj : j < payload.length)
    (hcap : j < d.dst.length) : d.dst[j] = payload[j] := by
  have hcount := h.count
  obtain ⟨hidx, _⟩ := h.of_encodeFrame hpayload
  obtain ⟨f, hf⟩ : ∃ f, starts[j]? = some f := ⟨_, List.getElem?_eq_getElem (by omega)⟩
  obtain ⟨rfl, _⟩ := h.byteStarts.of_encodeFrame hpayload hf
  have hbyte := h.bytes j _ _ hf (List.getElem?_eq_getElem hcap)
  refine BitVec.eq_of_getLsbD_eq fun t ht => ?_
  have hlen := encodeFrame_length payload
  rw [encodedLength] at hlen
  have hn : min 8 ((samples (encodeFrame payload)).length - (12 * j + 1)) = 8 := by rw [samples_length]; omega
  rw [hbyte t ht, hn, if_pos (by omega), Nat.sub_self, Nat.sub_zero, List.getD_eq_getElem?_getD, frame_data hj ht,
    Option.getD_some]

end

theorem over4_length (bytes : List Byte) : (over4 bytes).length = 4 * bytes.length := by
  have hbyte : (fun b => (over4Byte b).length) = fun _ => 4 := rfl
  rw [over4, List.length_flatMap, hbyte, List.map_const', List.sum_replicate, smul_eq_mul, Nat.mul_comm]

/-- Settles O30: the decoder finds the framed stream's bits, whose bytes begin twelve bits apart. -/
theorem encodeThenDecodeGivesThePayload : Obligations.EncodeThenDecodeGivesThePayload := by
  intro payload cap hpayload hcap
  obtain ⟨starts, hread⟩ := decodeRun_hasRead (over4 (encodeFrame payload)) cap
  rw [bitsOf_over4] at hread
  obtain ⟨hidx, hstop⟩ := hread.of_encodeFrame hpayload
  have hdst : (decodeRun (over4 (encodeFrame payload)) cap).dst.length = cap := decodeSamples_dst_length _ cap
  have hfits : payload.length ≤ cap := by
    have hlen := encodeFrame_length payload
    rw [encodedLength] at hlen
    rw [decodeBound, over4_length] at hcap
    omega
  refine ⟨Nat.eq_sub_of_add_eq hidx, hstop, List.ext_getElem ?_ fun j _ hj => ?_⟩
  · exact List.length_take_of_le (hfits.trans_eq hdst.symm)
  · rw [List.getElem_take]
    exact hread.byte_of_encodeFrame hpayload hj (by omega)

end Sys2Proof.Machine

/-! PROOFS. The decoder's commands: `DECODE`, `SENTCHK` and `EXTRACT` (44_decoder.md R126 to R128). -/

namespace Sys2Proof.Machine

/-! ## DECODE -/

theorem decodeProg_eq {s : State} (hdst : writableRange (brefOf s.engine.args.a2) (u32Of s.engine.args.a3) = true) :
    decodeProg s = readRange s (brefOf s.engine.args.a0) (u32Of s.engine.args.a1) fun bs =>
      .done fun t =>
        ((t.writeBytes (brefOf s.engine.args.a2) (decodeSamples bs (u32Of s.engine.args.a3)).dst).setResult0
          (BitVec.ofNat 32 (decodeSamples bs (u32Of s.engine.args.a3)).len)).setResult1
            ((bit (decodeSamples bs (u32Of s.engine.args.a3)).stopped).setWidth 32) :=
  if_pos hdst

theorem bit_setWidth (b : Bool) : (bit b).setWidth 32 = if b then (1 : Word) else 0 := by
  cases b <;> rfl

/-- Settles O25: `State.judged_cons` for each check; then the source is read whole, and its decode stored or the read
faults. -/
theorem decodeRecoversARange : Obligations.DecodeRecoversARange := by
  refine ⟨decode_encode .decode, fun s hidle => ?idle, fun s hfresh => ?fresh⟩
  case idle =>
    refine exec_idle_judged hidle rfl rfl <| State.judged_cons ?_ fun _ =>
      State.judged_cons (.of_eq (Bool.not_eq_true' _)) fun _ =>
        State.judged_cons (.of_eq (Bool.not_eq_true' _)) fun _ => State.judged_cons decide_eq_true_iff fun _ => rfl
    rw [Bool.or_eq_true, not_brefOk_eq_true_iff, not_brefOk_eq_true_iff]
  case fresh =>
    intro src dst r cap hsrc hdst
    refine ⟨fun bs hread => ?decoded, fun hread => ?unwritten⟩
    case decoded =>
      refine ⟨decodeSamples_dst_length bs cap, _, exec_fresh_done (i := .decode) hfresh
        ((decodeProg_eq hdst).trans (readRange_of_some hsrc hread)), ?_, stored_write _ _ _⟩
      rw [State.complete_setResult01, bit_setWidth]
      rfl
    case unwritten =>
      have hprog : progOf .decode s = .stop .readUnwritten := (decodeProg_eq hdst).trans (readRange_of_none hsrc hread)
      rw [exec_fresh hfresh, hprog, Prog.drive]

/-! ## SENTCHK -/

theorem firstSentinel_eq_none {bytes : List Byte} (h : 0xFF#8 ∉ bytes) : firstSentinel bytes = none := by
  refine List.findIdx?_eq_none_iff.mpr fun b hb => ?_
  rw [beq_eq_false_iff_ne]
  rintro rfl
  exact h hb

theorem firstSentinel_eq_some {bytes : List Byte} {i : Nat} (hi : bytes[i]? = some 0xFF#8)
    (hfirst : ∀ j, j < i → bytes[j]? ≠ some 0xFF#8) : firstSentinel bytes = some i := by
  obtain ⟨hlt, hbyte⟩ := List.getElem?_eq_some_iff.mp hi
  refine List.findIdx?_eq_some_iff_getElem.mpr ⟨hlt, beq_iff_eq.mpr hbyte, fun j hj hsentinel => ?_⟩
  exact hfirst j hj (List.getElem?_eq_some_iff.mpr ⟨hj.trans hlt, beq_iff_eq.mp hsentinel⟩)

/-- Settles O26: `State.judged_cons` for each check; then the range is read, and searched or the read faults. -/
theorem sentchkFindsTheFirstSentinel : Obligations.SentchkFindsTheFirstSentinel := by
  refine ⟨decode_encode .sentchk, fun s hidle => ?idle, fun s hfresh => ?fresh⟩
  case idle =>
    exact exec_idle_judged hidle rfl rfl <| State.judged_cons not_brefOk_eq_true_iff fun _ =>
      State.judged_cons (.of_eq (Bool.not_eq_true' _)) fun _ => rfl
  case fresh =>
    intro src n hrange
    refine ⟨fun bs hread => ?searched, fun hread => ?unwritten⟩
    case searched =>
      have hexec := exec_fresh_done (i := .sentchk) hfresh (readRange_of_some hrange hread)
      refine ⟨fun habsent => ?_, fun i hi hfirst => ?_⟩
      · rw [hexec, sentchkResults, firstSentinel_eq_none habsent]
        exact congrArg _ (State.complete_setResult01 s _ _)
      · rw [hexec, sentchkResults, firstSentinel_eq_some hi hfirst]
        exact congrArg _ (State.complete_setResult01 s _ _)
    case unwritten =>
      have hprog : progOf .sentchk s = .stop .readUnwritten := readRange_of_none hrange hread
      rw [exec_fresh hfresh, hprog, Prog.drive]

/-! ## EXTRACT -/

theorem extractFields_eq (d : List Byte) (len : Nat) : extractFields d len =
    { liters := if 30 ≤ len then d.getD 21 0 ++ d.getD 20 0 ++ d.getD 19 0 ++ d.getD 18 0 else 0
      litV := decide (30 ≤ len)
      batt := if 48 ≤ len then d.getD 31 0 else 0
      hstart := if 48 ≤ len then d.getD 44 0 else 0
      hend := if 48 ≤ len then d.getD 45 0 else 0
      reads := if 48 ≤ len then d.getD 48 0 else 0
      fldV := decide (48 ≤ len) } := by
  simp only [extractFields, decide_eq_true_eq]

theorem plausible_iff {len : Nat} {f : Fields} :
    plausible len f = true ↔ 48 ≤ len ∧ (f.reads ≠ 0 ∨ f.batt ≠ 0 ∨ f.liters ≠ 0) := by
  simp [plausible, or_assoc]

/-- Settles O27: `State.judged_cons` for each check; then the reply is read, and its fields stored or the read
faults. -/
theorem extractFillsTheReadingRegisters : Obligations.ExtractFillsTheReadingRegisters := by
  refine ⟨decode_encode .extract, fun s hidle => ?idle, fun s hfresh => ?fresh⟩
  case idle =>
    exact exec_idle_judged hidle rfl rfl <| State.judged_cons not_brefOk_eq_true_iff fun _ =>
      State.judged_cons decide_eq_true_iff fun _ => State.judged_cons (.of_eq (Bool.not_eq_true' _)) fun _ => rfl
  case fresh =>
    intro src len need hrange
    refine ⟨fun d hread => ?extracted, fun hread => ?unwritten⟩
    case extracted =>
      intro liters batt reads
      rw [exec_fresh_done (i := .extract) hfresh (readRange_of_some hrange hread), State.complete_setResult0,
        bit_setWidth]
      simp only [plausible_iff, extractFields_eq]
      rfl
    case unwritten =>
      have hprog : progOf .extract s = .stop .readUnwritten := readRange_of_none hrange hread
      rw [exec_fresh hfresh, hprog, Prog.drive]

end Sys2Proof.Machine

/-! PROOFS. The block steps of an accepted command lead to what its program gives when it is evaluated in one go
(60_exceptions.md R152, R153).

A program is made from what its block steps leave alone, so each of them goes on with the same program; and the effects
that end it do not see the replies by which the engine remembers how far it has come. -/

namespace Sys2Proof.Machine

/-! ## What a command's program depends on -/

/-- All that a program is made from is the same in both states: the buffers, the registers, the session and the engine's
latches. -/
structure SameInputs (s u : State) : Prop where
  params : u.params = s.params
  csr : u.csr = s.csr
  sess : u.sess = s.sess
  mem : u.mem = s.mem
  args : u.engine.args = s.engine.args
  t0 : u.engine.t0 = s.engine.t0

theorem State.readBytes_congr {s u : State} (hparams : u.params = s.params) (hmem : u.mem = s.mem) (a : HostAddr)
    (n : Nat) : u.readBytes a n = s.readBytes a n := by
  induction n with
  | zero => rfl
  | succ n ih => simp only [State.readBytes, State.readByte, ih, hparams, hmem]

theorem readRange_congr {s u : State} (hparams : u.params = s.params) (hmem : u.mem = s.mem) :
    readRange u = readRange s := by
  funext a n k
  simp only [readRange, State.readBytes_congr hparams hmem]

theorem storeReply_params (s u : State) (got : List Byte) : (storeReply s got u).params = u.params := by
  unfold storeReply
  split <;> rfl

theorem storeReply_mem_congr {s u v : State} (hmem : u.mem = v.mem) (got : List Byte) :
    (storeReply s got u).mem = (storeReply s got v).mem := by
  unfold storeReply
  split
  · exact hmem
  · exact congrArg (fun m : Memory => m.write _ got) hmem

/-- An action that reads no buffer is the same term in both states. -/
theorem sessionAction_congr {s u : State} (hparams : u.params = s.params) (hsess : u.sess = s.sess)
    (hmem : u.mem = s.mem) (now : Word) : sessionAction u now = sessionAction s now := by
  have hread := readRange_congr hparams hmem
  have hreply (got : List Byte) : readRange (storeReply s got u) = readRange (storeReply s got s) :=
    readRange_congr (by rw [storeReply_params, storeReply_params, hparams]) (storeReply_mem_congr hmem got)
  obtain ⟨params, csr, engine, sess, mem, port, env⟩ := u
  cases hparams
  cases hsess
  unfold sessionAction
  cases hs : s.sess.state
  case streamRequest =>
    rw [actStreamRequest, hread]
    rfl
  case dataFetch2 =>
    have hend (got : List Byte) :
        dataFetch2End ⟨s.params, csr, engine, s.sess, mem, port, env⟩ now got = dataFetch2End s now got := by
      rw [dataFetch2End_eq, dataFetch2End_eq, ← hreply]
      rfl
    rw [actDataFetch2, actDataFetch2]
    simp only [hend]
    rfl
  case decode => simp only [actDecode, hread]
  all_goals rfl

/-- A command goes on with the same program as long as its inputs stay. -/
theorem progOf_congr (i : Instr) {s u : State} (h : SameInputs s u) : progOf i u = progOf i s := by
  obtain ⟨hparams, hcsr, hsess, hmem, hargs, ht0⟩ := h
  have hread := readRange_congr hparams hmem
  have htick := sessionAction_congr hparams hsess hmem
  obtain ⟨params, csr, ⟨busy, opc, args, t0, replies⟩, sess, mem, port, env⟩ := u
  cases hparams; cases hcsr; cases hsess; cases hargs; cases ht0
  cases i
  case wburst => simp only [progOf, wburstProg, hread]
  case crc16 => simp only [progOf, crc16Prog, hread]
  case encode => simp only [progOf, encodeProg, hread]
  case decode => simp only [progOf, decodeProg, hread]
  case sentchk => simp only [progOf, sentchkProg, hread]
  case extract => simp only [progOf, extractProg, hread]
  case tick => simp only [progOf, tickProg, htick]
  all_goals rfl

/-! ## The replies -/

/-- The state with other replies remembered. -/
def State.withReplies (s : State) (rs : List Reply) : State := { s with engine := { s.engine with replies := rs } }

/-- The effect's completion does not see the replies that were remembered. -/
def ForgetsReplies (fx : State → State) : Prop := ∀ u rs, (fx (u.withReplies rs)).complete = (fx u).complete

/-- The outcome leaves no command running. -/
def Finishes (o : Host.Outcome State Fault Refusal) : Prop := ∀ t, o = .next t → t.engine.busy = false

/-- Evaluated in one go, a program that comes to an end does not see the replies. -/
theorem Prog.evalAll_withReplies {p : Prog} {u : State} (hp : p.AllEnds ForgetsReplies) (hbusy : u.engine.busy = true)
    (hend : Finishes (p.evalAll u)) (rs : List Reply) : p.evalAll (u.withReplies rs) = p.evalAll u := by
  induction p generalizing u with
  | done fx => exact congrArg Host.Outcome.next (hp fx (.done fx) u rs)
  | stop f => rfl
  | bus out k ih => exact ih _ (u := u.after out) (fun fx h => hp fx (.bus _ _ _ _ h)) hbusy hend
  | clock k ih =>
    exact ih _ (u := { u with env := u.env.readClock.2 }) (fun fx h => hp fx (.clock _ _ _ h)) hbusy hend
  | level k ih =>
    exact ih _ (u := { u with env := u.env.drawLevel.2 }) (fun fx h => hp fx (.level _ _ _ h)) hbusy hend
  | csr f k ih => exact ih _ (fun fx h => hp fx (.csr _ _ _ _ h)) hbusy hend
  | again n => exact absurd (hend _ rfl) (by rw [State.keepReplies_engine, hbusy]; decide)

/-! ## Between two block steps -/

/-- The command `i` is running in `u` with nothing pending at the host, and `p` is left of its program. -/
structure Left (i : Instr) (u : State) (p : Prog) : Prop where
  alone : BlockAlone u
  busy : u.engine.busy = true
  opc : instrOfOpcode u.engine.opc = some i
  left : (progOf i u).resume u.engine.replies = some p

section Running
variable {i : Instr} {u : State} {p q : Prog}

theorem Left.step_eq (h : Left i u p) : step u = p.drive true u := by
  rw [step_of_blockAlone h.alone h.busy h.opc, exec_at ⟨h.busy, rfl⟩ h.left]

/-- An answer that the program waits for is remembered, and the program goes on with it. -/
theorem Left.record {e : Env} {r : Reply} (h : Left i u p) (hhost : e.host = u.env.host)
    (hq : p.resume [r] = some q) : Left i (State.record { u with env := e } r) q where
  alone := ⟨hhost.trans h.alone.1, h.alone.2⟩
  busy := h.busy
  opc := h.opc
  left := by
    have hprog : progOf i (State.record { u with env := e } r) = progOf i u :=
      progOf_congr i ⟨rfl, rfl, rfl, rfl, rfl, rfl⟩
    rw [hprog, State.record_engine, Prog.resume_append h.left, hq]

/-- Some further steps after an outcome. -/
def thenRun (n : Nat) : Host.Outcome State Fault Refusal → Host.Outcome State Fault Refusal
  | .next t => Host.Core.run Sys2Proof.core n t
  | .fault f => .fault f
  | .refused r => .refused r

theorem run_succ_eq (n : Nat) (u : State) : Host.Core.run Sys2Proof.core (n + 1) u = thenRun n (step u) := by
  have e : Host.Core.step Sys2Proof.core u = step u := rfl
  simp only [Host.Core.run, e]
  cases step u <;> rfl

/-- The block step, and some further steps, come to what the program gives in one go. -/
def StepsAgree (b : Bool) (u : State) (p : Prog) : Prop := ∃ n, thenRun n (p.drive b u) = p.evalAll u

/-- After an answer the same holds of the state that remembers it and of the one that does not. -/
theorem Left.stepsAgree_answered {b : Bool} {e : Env} {r : Reply} (h : Left i u p) (hhost : e.host = u.env.host)
    (hq : p.resume [r] = some q) (hends : q.AllEnds ForgetsReplies) (hend : Finishes (q.evalAll { u with env := e }))
    (ih : ∀ {v}, Left i v q → Finishes (q.evalAll v) → StepsAgree b v q) :
    ∃ n, thenRun n (q.drive b (State.record { u with env := e } r)) = q.evalAll { u with env := e } := by
  have hrest : q.evalAll (State.record { u with env := e } r) = q.evalAll { u with env := e } :=
    Prog.evalAll_withReplies (u := { u with env := e }) hends h.busy hend _
  exact hrest ▸ ih (h.record hhost hq) (hrest ▸ hend)

theorem Left.stepsAgree {b : Bool} (h : Left i u p) (hp : p.AllEnds ForgetsReplies) (hend : Finishes (p.evalAll u)) :
    StepsAgree b u p := by
  induction p generalizing b u with
  | done fx => exact ⟨0, rfl⟩
  | stop f => exact ⟨0, rfl⟩
  | bus out k ih =>
    have hk : (k (u.busTxn out).1).AllEnds ForgetsReplies := fun fx h => hp fx (.bus _ _ _ _ h)
    obtain ⟨n, hn⟩ := h.stepsAgree_answered (b := false) (r := .bytes (u.busTxn out).1) (u.busTxn_host out)
      (Prog.resume_nil _) hk hend fun hv => ih _ hv hk
    cases b with
    | true => exact ⟨n, hn⟩
    | false => exact ⟨n + 1, by rw [Prog.drive, thenRun, run_succ_eq, h.step_eq]; exact hn⟩
  | clock k ih =>
    have hk : (k u.env.readClock.1).AllEnds ForgetsReplies := fun fx h => hp fx (.clock _ _ _ h)
    exact h.stepsAgree_answered (r := .time u.env.readClock.1) u.env.readClock_host (Prog.resume_nil _) hk
      hend fun hv => ih _ hv hk
  | level k ih =>
    have hk : (k u.env.drawLevel.1).AllEnds ForgetsReplies := fun fx h => hp fx (.level _ _ _ h)
    exact h.stepsAgree_answered (r := .level u.env.drawLevel.1) u.env.drawLevel_host (Prog.resume_nil _) hk
      hend fun hv => ih _ hv hk
  | csr f k ih =>
    have hk : (k (f u.csr)).AllEnds ForgetsReplies := fun fx h => hp fx (.csr _ _ _ _ h)
    exact h.stepsAgree_answered (r := .word (f u.csr)) rfl (Prog.resume_nil _) hk hend fun hv => ih _ hv hk
  | again n => exact absurd (hend _ rfl) (by rw [State.keepReplies_engine, h.busy]; decide)

/-- With nothing pending at the host, the block steps of an accepted command lead to what its program gives in one
go. -/
theorem run_eq_evalAll (halone : BlockAlone u) (hfresh : Fresh u) (hopc : u.engine.opc = opcodeOf i)
    (hends : (progOf i u).AllEnds ForgetsReplies) (hfinishes : Finishes ((progOf i u).evalAll u)) :
    ∃ n, Host.Core.run Sys2Proof.core n u = (progOf i u).evalAll u := by
  obtain ⟨hbusy, hreplies⟩ := hfresh
  have hleft : Left i u (progOf i u) :=
    ⟨halone, hbusy, instrOfOpcode_eq_some_iff.mpr hopc, by rw [hreplies, Prog.resume_nil]⟩
  obtain ⟨n, hn⟩ := hleft.stepsAgree (b := true) hends hfinishes
  exact ⟨n + 1, by rw [run_succ_eq, hleft.step_eq, hn]⟩

end Running

end Sys2Proof.Machine

/-! PROOFS. A tick's last effects: each follows a row of the transition table (45_read_sequencer.md R129, R131). -/

namespace Sys2Proof.Machine

/-! ## What a tick ends with -/

/-- What a state's action does before the tick's results: the session's state stays, and the replies are not seen. -/
structure SessionEffect (f : State → State) : Prop where
  state : ∀ u, (f u).sess.state = u.sess.state
  replies : ∀ u rs, f (u.withReplies rs) = (f u).withReplies rs

/-- The last effects of a tick that begins in the session state `a`: a transition to `next` is in the table of R131, and
one to Fail has a code of its exit. -/
inductive TickEffect (a : SessState) : (State → State) → Prop where
  | none : TickEffect a fun u => (u.setResult0 0).setResult1 0
  | stay (f : State → State) (hf : SessionEffect f) : TickEffect a fun u => tickResults false (f u)
  | goto (next : SessState) (now : Word) (f : State → State) (hf : SessionEffect f)
      (hedge : ∀ code, sessionEdge a next code = true) : TickEffect a fun u => tickResults true ((f u).goto next now)
  | fail (code : FailCode) (now : Word) (f : State → State) (hf : SessionEffect f)
      (hedge : sessionEdge a .fail code = true) : TickEffect a fun u => tickResults true ((f u).failSession code now)

theorem TickEffect.forgetsReplies {a : SessState} {fx : State → State} (h : TickEffect a fx) : ForgetsReplies fx := by
  intro u rs
  cases h with
  | none => rfl
  | stay f hf => dsimp only; rw [hf.replies]; rfl
  | goto next now f hf => dsimp only; rw [hf.replies]; rfl
  | fail code now f hf => dsimp only; rw [hf.replies]; rfl

theorem TickEffect.moves {a : SessState} {fx : State → State} (h : TickEffect a fx) {u : State}
    (hu : u.sess.state = a) :
    (fx u).sess.state = a ∨ sessionEdge a (fx u).sess.state (fx u).sess.failcode = true := by
  cases h with
  | none => exact .inl hu
  | stay f hf => exact .inl ((hf.state u).trans hu)
  | goto next now f hf hedge => exact .inr (hedge _)
  | fail code now f hf hedge => exact .inr hedge

/-- Every last effect of the program is one of a tick that begins in `a`. -/
abbrev Prog.TicksFrom (a : SessState) (p : Prog) : Prop := p.AllEnds (TickEffect a)

/-! ## The session's actions -/

section Effects

theorem SessionEffect.id : SessionEffect id := ⟨fun _ => rfl, fun _ _ => rfl⟩

theorem SessionEffect.mapSess {f : Session → Session} (h : ∀ x, (f x).state = x.state) :
    SessionEffect fun t => t.mapSess f := ⟨fun u => h u.sess, fun _ _ => rfl⟩

theorem storeReply_sessionEffect (s : State) (got : List Byte) : SessionEffect (storeReply s got) := by
  refine ⟨fun u => ?_, fun u rs => ?_⟩ <;> unfold storeReply <;> split <;> rfl

variable {s : State}

theorem paceTopUp_ticks (now : Word) : (paceTopUp s now).TicksFrom .streamPreamble :=
  have stepEnd : (paceStepEnd s now).TicksFrom .streamPreamble :=
    .ite (.done <| .goto _ _ _ (.mapSess fun _ => rfl) fun _ => rfl) (.done <| .stay _ (.mapSess fun _ => rfl))
  .readReg fun _ => .ite (.writeBurst stepEnd) stepEnd

theorem streamRequestEnd_ticks (now : Word) (sent : BitVec 16) :
    (streamRequestEnd s now sent).TicksFrom .streamRequest :=
  have sentEffect : SessionEffect fun t => t.mapSess fun x => { x with sent := sent } := .mapSess fun _ => rfl
  .ite (.done <| .goto _ _ _ sentEffect fun _ => rfl) <|
    .ite (.done <| .fail _ _ _ sentEffect rfl) (.done <| .stay _ sentEffect)

theorem dataFetch2End_ticks (now : Word) (got : List Byte) : (dataFetch2End s now got).TicksFrom .dataFetch2 := by
  have stored := storeReply_sessionEffect s got
  rw [dataFetch2End_eq]
  exact .ite
    (.applySeq <| .readRange fun _ => .ite (.done <| .goto _ _ _ stored fun _ => rfl) (.done <| .fail _ _ _ stored rfl))
    (.ite (.applySeq <| .done <| .fail _ _ _ stored rfl) (.done <| .stay _ stored))

theorem actDecode_ticks (now : Word) : (actDecode s now).TicksFrom .decode := by
  refine .readRange fun raw => ?_
  have staged (f : Session → Session) (hf : ∀ x, (f x).state = x.state) :
      SessionEffect fun t => (t.writeBytes decb (decodeSamples raw decbSize).dst).mapSess f :=
    ⟨fun u => hf u.sess, fun _ _ => rfl⟩
  exact .ite (.done <| .goto _ _ _ (staged _ fun _ => rfl) fun _ => rfl) <|
    .ite (.done <| .fail _ _ _ (staged _ fun _ => rfl) rfl) (.done <| .fail _ _ _ (staged _ fun _ => rfl) rfl)

/-- Every action of R131 ends along its row of the table. -/
theorem sessionAction_ticks (s : State) (now : Word) : (sessionAction s now).TicksFrom s.sess.state := by
  have stay {a : SessState} : (tickStay id).TicksFrom a := .done <| .stay _ .id
  have goto {a next : SessState} (h : ∀ code, sessionEdge a next code = true) : (tickGoto next now id).TicksFrom a :=
    .done <| .goto _ _ _ .id h
  have fail {a : SessState} {code : FailCode} (h : sessionEdge a .fail code = true) :
      (tickFail code now id).TicksFrom a := .done <| .fail _ _ _ .id h
  unfold sessionAction
  cases s.sess.state
  case idle => exact stay
  case startPreamble =>
    exact .strobe <| .applySeq <| .writeBurst <| .strobe <| .done <| .goto _ _ _ (.mapSess fun _ => rfl) fun _ => rfl
  case streamPreamble =>
    exact .ite stay <| .readReg fun _ => .ite (paceTopUp_ticks now) (.strobe (paceTopUp_ticks now))
  case guardBeforeReq => exact .ite (goto fun _ => rfl) stay
  case startRequest => exact .applySeq <| .done <| .goto _ _ _ ⟨fun _ => rfl, fun _ _ => rfl⟩ fun _ => rfl
  case streamRequest =>
    exact .readReg fun _ => .ite (.strobe <| .strobe <| streamRequestEnd_ticks now _) <|
      .ite (.readRange fun _ => .writeBurst <| streamRequestEnd_ticks now _) (streamRequestEnd_ticks now _)
  case waitTxFinish =>
    exact .readReg fun _ => .ite (.applySeq <| goto fun _ => rfl) (.ite (.applySeq <| fail rfl) stay)
  case dataSetupStage1 => exact .applySeq <| .strobe <| .strobe <| goto fun _ => rfl
  case dataWaitSync1 => exact .level fun _ => .ite (goto fun _ => rfl) (.ite (goto fun _ => rfl) stay)
  case dataFetch1 => exact .readReg fun _ => .ite (.readBurst fun _ => goto fun _ => rfl) (goto fun _ => rfl)
  case dataSetupStage2 =>
    exact .applySeq <| .strobe <| .strobe <| .done <| .goto _ _ _ (.mapSess fun _ => rfl) fun _ => rfl
  case dataWaitSync2 =>
    exact .level fun _ => .ite
      (.readReg fun _ => .readReg fun _ => .done <| .goto _ _ _ (.mapSess fun _ => rfl) fun _ => rfl)
      (.ite (fail rfl) stay)
  case dataFetch2 =>
    exact .readReg fun _ => .ite (.readBurst fun _ => .ite (dataFetch2End_ticks now _) (.stop _))
      (dataFetch2End_ticks now _)
  case decode => exact actDecode_ticks now
  case publish => exact .done <| .goto _ _ _ ⟨fun _ => rfl, fun _ _ => rfl⟩ fun _ => rfl
  case fail =>
    exact .strobe <| .strobe <| .strobe <| .applySeq <| .done <|
      .goto _ _ _ ⟨fun _ => rfl, fun _ _ => rfl⟩ fun _ => rfl

theorem tickProg_ticks (s : State) : (tickProg s).TicksFrom s.sess.state :=
  .ite (.done .none) (.clock fun now => sessionAction_ticks s now)

end Effects

theorem tickProg_of_session {s : State} (h : s.sess.state ≠ .idle) :
    tickProg s = .clock fun now => sessionAction s now := if_neg h

end Sys2Proof.Machine

/-! PROOFS. The session moves along the table of 45_read_sequencer.md R131, at a command's completion. -/

namespace Sys2Proof.Machine

/-! ## The step that changes the session -/

/-- The step makes a block step of the running command `i`, on `s` but for the host's pending events. -/
structure BlockSteps (i : Instr) (s t : State) : Prop where
  busy : s.engine.busy = true
  opc : s.engine.opc = opcodeOf i
  exec : ∃ rest, exec i (s.popHost rest) = .next t

theorem blockTurn_blockSteps {s t : State} {rest : List HostEvent} {r : State × Option Instr}
    (h : blockTurn (s.popHost rest) = .next r) (hr : Runs r t) (hsess : t.sess ≠ s.sess) :
    ∃ i, BlockSteps i s t := by
  unfold blockTurn at h
  split at h
  next hrun =>
    split at h <;> cases h
    next i hi => exact ⟨i, (Bool.and_eq_true_iff.mp hrun).2, instrOfOpcode_some hi, rest, hr⟩
  next => cases h; cases hr; exact absurd rfl hsess

/-- Nothing but the fall of `RST_N` and a block step changes the session. -/
theorem turn_blockSteps {s t : State} {r : State × Option Instr} (h : turn s = .next r) (hr : Runs r t)
    (hsess : t.sess ≠ s.sess) : (∃ rest, s.env.host = .rstN false :: rest) ∨ ∃ i, BlockSteps i s t := by
  have kept {l : List HostEvent} (hr : Runs (s.popHost l, none) t) : False := by cases hr; exact hsess rfl
  cases hhost : s.env.host with
  | nil =>
    simp only [turn, hhost] at h
    exact .inr (blockTurn_blockSteps (rest := s.env.host) h hr hsess)
  | cons e rest =>
    cases e <;> simp only [turn, hhost] at h
    case access x =>
      split at h
      next => cases h; exact absurd (onCmdWrite_writes hr).sess hsess
      next =>
        split at h <;> cases h
        next hacc => cases hr; exact absurd (hostAccess_writes hacc).1.sess hsess
    case pause => exact .inr (blockTurn_blockSteps h hr hsess)
    case wait =>
      split at h
      · exact .inr (blockTurn_blockSteps (rest := s.env.host) h hr hsess)
      · cases h; exact (kept hr).elim
    case tickUntil => cases h; exact (kept hr).elim
    case untilState =>
      cases h
      split at hr <;> exact (kept hr).elim
    case rstN level =>
      cases level
      · exact .inl ⟨rest, rfl⟩
      · cases h; cases hr; exact absurd rfl hsess

theorem step_blockSteps {s t : State} (h : step s = .next t) (hsess : t.sess ≠ s.sess) :
    (∃ rest, s.env.host = .rstN false :: rest) ∨ ∃ i, BlockSteps i s t := by
  unfold step at h
  split at h
  next hturn => exact turn_blockSteps hturn h hsess
  next hturn => cases h; exact turn_blockSteps hturn rfl hsess
  next => cases h
  next => cases h

/-! ## The commands that move the session -/

/-- The session states `a` and `y.state` are the same, or joined by the table of R131. -/
def Moves (a : SessState) (y : Session) : Prop := y.state = a ∨ sessionEdge a y.state y.failcode = true

theorem opcodeOf_injective : Function.Injective opcodeOf := fun i j h => by
  rw [← Option.some_inj, ← instrOfOpcode_opcodeOf i, h, instrOfOpcode_opcodeOf]

/-- `START_READ` leaves Idle, `TICK` follows the table, and no other command touches the session. -/
theorem progOf_moves {i : Instr} {s u : State} {fx : State → State} (hends : (progOf i s).Ends fx)
    (hu : u.sess = s.sess) (hstart : i = .startRead → s.sess.state = .idle) : Moves s.sess.state (fx u).sess := by
  by_cases hread : i = .startRead
  · subst hread
    have started : (startReadProg s).AllEnds fun fx => Moves .idle (fx u).sess := .clock fun _ => .done (.inr rfl)
    rw [hstart rfl]
    exact started fx hends
  by_cases htick : i = .tick
  · subst htick
    exact (tickProg_ticks s fx hends).moves (congrArg Session.state hu)
  have kept : (fx u).sess = u.sess := ((progOf_addsBytes hread htick s).ends hends u).sess
  exact .inl (by rw [kept, hu])

/-- Settles O51: the session changes at a completion only, and by `progOf_moves` along the table; the invariant has it
that no `START_READ` runs during a session. -/
theorem sessionMovesAlongTheTable : Obligations.SessionMovesAlongTheTable := by
  intro s t hinv hstep hstate
  refine (step_blockSteps hstep fun h => hstate (congrArg Session.state h)).imp_right
    fun ⟨i, hbusy, hopc, rest, hexec⟩ => ?_
  rcases exec_busy_cases (s := s.popHost rest) hbusy hexec with hmid | ⟨u, hdone⟩
  · exact absurd (congrArg Session.state hmid.sess) hstate
  have hengine := hdone.engine
  obtain ⟨hmid, fx, hends, rfl⟩ := hdone
  have hstart : i = .startRead → s.sess.state = .idle := by
    rintro rfl
    obtain ⟨_, _, _, hrun, _, _⟩ := hinv
    obtain ⟨j, hj, hallowed⟩ := hrun hbusy
    obtain rfl : .startRead = j := opcodeOf_injective (hopc.symm.trans hj)
    exact not_not.mp fun hsession => Bool.false_ne_true (hallowed hsession)
  exact ⟨hbusy, by rw [hengine], (progOf_moves hends hmid.sess hstart).resolve_left hstate⟩

end Sys2Proof.Machine

/-! PROOFS. `NOP`, `START_READ`, and the ticks of one block step (45_read_sequencer.md R134, R139, R144, R145, R149 to
R151). -/

namespace Sys2Proof.Machine

/-! ## NOP -/

/-- Settles O32: no check, and no effect but completion. -/
theorem nopOnlyCompletes : Obligations.NopOnlyCompletes := by
  refine ⟨decode_encode .nop, fun s hidle => ?idle, fun s hfresh => ?fresh⟩
  case idle => exact exec_idle_judged_of_allowed (checks := []) hidle rfl rfl rfl
  case fresh => rw [exec_fresh_done hfresh rfl, id, State.complete_eq]

/-! ## START_READ -/

/-- Settles O33: `State.judged_cons` for each check; then the clock is read, and the session set up. -/
theorem startReadLatchesTheSession : Obligations.StartReadLatchesTheSession := by
  refine ⟨decode_encode .startRead, fun s hidle => ?idle, fun s hfresh => ?fresh⟩
  case idle =>
    exact exec_idle_judged hidle rfl rfl <| State.judged_cons (.of_eq (Bool.not_eq_true' _)) fun _ =>
      State.judged_cons not_fits_eq_true_iff fun _ => State.judged_cons decide_eq_true_iff fun _ =>
        State.judged_cons decide_eq_true_iff fun _ => rfl
  case fresh =>
    rw [exec_fresh hfresh, progOf, startReadProg, Prog.drive, Prog.drive]
    rfl

/-! ## Ticks of one block step -/

/-- Settles O34: no check; with no session both results are 0. -/
theorem tickWithNoSessionDoesNothing : Obligations.TickWithNoSessionDoesNothing := by
  refine ⟨decode_encode .tick, fun s hidle => ?idle, fun s hfresh hnone => ?fresh⟩
  case idle => exact exec_idle_judged_of_allowed (checks := []) hidle rfl rfl rfl
  case fresh => rw [exec_fresh_done (i := .tick) hfresh (if_pos hnone), State.complete_setResult01]

/-- A tick's first block step takes the reading, and goes on with the state's action. -/
theorem exec_tick_fresh {s : State} {p : Prog} (h : Fresh s) (hsession : s.sess.state ≠ .idle)
    (haction : sessionAction s s.tickNow = p) :
    exec .tick s = p.drive true (s.ticked.record (.time s.tickNow)) := by
  rw [exec_fresh h, progOf, tickProg_of_session hsession, Prog.drive, ← haction]
  rfl

theorem expired_iff {t0 budget now : Word} : expired t0 budget now = true ↔ budget.toNat ≤ (now - t0).toNat :=
  decide_eq_true_iff

/-- The acknowledgement's wait ends at data-ready or, tolerated, at its budget (45_read_sequencer.md R139). -/
theorem actDataWaitSync1_drive (s : State) (now : Word) (b : Bool) (u : State) :
    (actDataWaitSync1 s now).drive b u = .next (
      if u.env.drawLevel.1 = true ∨ s.sess.budgets.ack.toNat ≤ (now - s.sess.t0).toNat then
        State.tickEnd { u with env := u.env.drawLevel.2 } { u.sess with state := .dataFetch1, t0 := now } true
      else State.tickEnd { u with env := u.env.drawLevel.2 } u.sess false) := by
  rw [actDataWaitSync1, Prog.drive]
  simp only [expired_iff, ← ite_or]
  split <;> rfl

/-- Settles O37: both ticks end in their only block step, by the budget or by data-ready. -/
theorem tickGuardAndAckWait : Obligations.TickGuardAndAckWait := by
  refine ⟨fun s hfresh hstate => ?guard, fun s hfresh hstate => ?ack⟩
  case guard =>
    have haction : sessionAction s s.tickNow = actGuardBeforeReq s s.tickNow := by rw [sessionAction, hstate]
    rw [exec_tick_fresh hfresh (by rw [hstate]; decide) haction, actGuardBeforeReq]
    simp only [expired_iff]
    split <;> rfl
  case ack =>
    intro ready u
    have haction : sessionAction s s.tickNow = actDataWaitSync1 s s.tickNow := by rw [sessionAction, hstate]
    rw [exec_tick_fresh hfresh (by rw [hstate]; decide) haction, actDataWaitSync1_drive]
    rfl

/-- Settles O46: the tick's only effect is the transition to Idle with the registers published. -/
theorem tickPublish : Obligations.TickPublish := by
  intro s hfresh hstate g raw
  have haction : sessionAction s s.tickNow = actPublish s s.tickNow := by rw [sessionAction, hstate]
  rw [exec_tick_fresh hfresh (by rw [hstate]; decide) haction, actPublish]
  rfl

/-- Settles O45: RAWB is read whole, and the decode's length and fields choose among the three transitions. -/
theorem tickDecode : Obligations.TickDecode := by
  intro s raw hfresh hstate hrecv hread d f x
  have hrange : readableRange rawb s.sess.recv.toNat = true :=
    (Bool.and_eq_true_iff.mp (writableRange_rawb_start hrecv)).1
  have hsession : s.sess.state ≠ .idle := by rw [hstate]; decide
  have haction := (show sessionAction s s.tickNow = actDecode s s.tickNow by rw [sessionAction, hstate]).trans
    (readRange_of_some hrange hread)
  by_cases hok : plausible d.len f = true
  · rw [if_pos (plausible_iff.mp hok)]
    exact ⟨_, exec_tick_fresh hfresh hsession (haction.trans (if_pos hok)), stored_write _ _ _, rfl⟩
  rw [if_neg (mt plausible_iff.mpr hok)]
  have hfail := haction.trans (if_neg hok)
  by_cases hshort : d.len < 48
  · rw [if_pos hshort]
    exact ⟨_, exec_tick_fresh hfresh hsession (hfail.trans (if_pos hshort)), stored_write _ _ _, rfl⟩
  · rw [if_neg hshort]
    exact ⟨_, exec_tick_fresh hfresh hsession (hfail.trans (if_neg hshort)), stored_write _ _ _, rfl⟩

end Sys2Proof.Machine

/-! PROOFS. What a program gives when it is evaluated in one go: one rule for each procedure that the session's actions
are written with (40_bus_access.md R75, 45_read_sequencer.md R129). -/

namespace Sys2Proof.Machine

/-! ## Transactions one after the other -/

section Transactions
variable (s : State) (out : List Byte) (outs more : List (List Byte))

@[simp] theorem State.after_sess : (s.after out).sess = s.sess := rfl
@[simp] theorem State.after_mem : (s.after out).mem = s.mem := rfl
@[simp] theorem State.ticked_sess : s.ticked.sess = s.sess := rfl
@[simp] theorem State.ticked_mem : s.ticked.mem = s.mem := rfl

theorem busTxns_append : busTxns s (outs ++ more) = busTxns (busTxns s outs) more := List.foldl_append ..

/-- Transactions change the environment only. -/
theorem busTxns_frame : busTxns s outs = { s with env := (busTxns s outs).env } := by
  induction outs generalizing s with
  | nil => rfl
  | cons out outs ih => exact ih (s.after out)

@[simp] theorem busTxns_params : (busTxns s outs).params = s.params := by rw [busTxns_frame]
@[simp] theorem busTxns_csr : (busTxns s outs).csr = s.csr := by rw [busTxns_frame]
@[simp] theorem busTxns_sess : (busTxns s outs).sess = s.sess := by rw [busTxns_frame]
@[simp] theorem busTxns_mem : (busTxns s outs).mem = s.mem := by rw [busTxns_frame]

end Transactions

/-! ## Programs -/

/-- Evaluated in one go from `u`, the program gives `t`. -/
def Prog.Gives (p : Prog) (u t : State) : Prop := p.evalAll u = .next t

namespace Prog.Gives

section Programs
variable {p : Params} {k q r : Prog} {u t : State}

theorem pos {c : Prop} [Decidable c] (hc : c) (h : q.Gives u t) : (if c then q else r).Gives u t := by
  rw [if_pos hc]; exact h

theorem neg {c : Prop} [Decidable c] (hc : ¬c) (h : r.Gives u t) : (if c then q else r).Gives u t := by
  rw [if_neg hc]; exact h

theorem strobe {c : Strobe} (h : k.Gives (u.after (strobeTxn p c)) t) : (strobe p c k).Gives u t := h

theorem writeBurst {a : ChipAddr} {data : List Byte} (h : k.Gives (u.after (burstWrite p a data)) t) :
    (writeBurst p a data k).Gives u t := h

theorem applySeq {l : List (ChipAddr × Byte)} (h : k.Gives (busTxns u (seqTxns p l)) t) :
    (applySeq p l k).Gives u t := by
  induction l generalizing u with
  | nil => exact h
  | cons e l ih => exact ih (u := u.after (singleWrite p e.1 e.2)) h

theorem readReg {a : ChipAddr} {k : Byte → Prog}
    (h : (k (u.answer (singleRead p a))).Gives (u.after (singleRead p a)) t) : (readReg p a k).Gives u t := by
  have hlen : (u.busTxn (singleRead p a)).1.length = 2 := (u.busTxn_length _).trans (singleRead_length p a)
  change (secondByte (u.busTxn (singleRead p a)).1 k).Gives (u.after (singleRead p a)) t
  rw [secondByte_eq _ hlen.ge]
  exact h

theorem readBurst {a : ChipAddr} {n : Nat} {k : List Byte → Prog}
    (h : (k ((u.busTxn (burstRead p a n)).1.drop 1)).Gives (u.after (burstRead p a n)) t) :
    (readBurst p a n k).Gives u t :=
  pos ((u.busTxn_length _).trans (burstRead_length p a n)) h

theorem readRange {s : State} {a : HostAddr} {n : Nat} {bs : List Byte} {k : List Byte → Prog}
    (hrange : readableRange a n = true) (hread : s.readBytes a n = some bs) (h : (k bs).Gives u t) :
    (readRange s a n k).Gives u t := by
  rw [readRange_of_some hrange hread]; exact h

theorem level {k : Bool → Prog} (h : (k u.env.drawLevel.1).Gives { u with env := u.env.drawLevel.2 } t) :
    (Prog.level k).Gives u t := h

end Programs

/-! The ends of a tick: `v` is the state before the results but for its session, which is `x`. -/

section Ends
variable {fx : State → State} {now : Word} {u v : State} {x y : Session}

theorem tickStay (h : fx u = { v with sess := x }) : (tickStay fx).Gives u (v.tickEnd x false) := by
  rw [Gives, Machine.tickStay, evalAll, h]
  rfl

theorem tickGoto {next : SessState} (h : fx u = { v with sess := x }) (hy : { x with state := next, t0 := now } = y) :
    (tickGoto next now fx).Gives u (v.tickEnd y true) := by
  rw [Gives, Machine.tickGoto, evalAll, h, ← hy]
  rfl

theorem tickFail {code : FailCode} (h : fx u = { v with sess := x })
    (hy : { x with state := .fail, t0 := now, failcode := code } = y) :
    (tickFail code now fx).Gives u (v.tickEnd y true) := by
  rw [Gives, Machine.tickFail, evalAll, h, ← hy]
  rfl

end Ends

end Prog.Gives

/-! ## Ticks -/

theorem State.eq_withSess {u : State} {x : Session} (h : u.sess = x) : u = { u with sess := x } := by rw [← h]

theorem State.mapSess_eq {u : State} {x : Session} (h : u.sess = x) (f : Session → Session) :
    u.mapSess f = { u with sess := f x } := by
  rw [← h]
  rfl

theorem State.mapStatus_eq {u : State} {c : Csrs} {x : Session} (hc : u.csr = c) (hx : u.sess = x)
    (f : Status → Status) : u.mapStatus f = { u with csr := { c with status := f c.status }, sess := x } := by
  rw [← hc, ← hx]
  rfl

theorem Ticking.state {st : SessState} {s : State} (h : Ticking st s) : s.sess.state = st := by
  obtain ⟨_, _, _, hstate⟩ := h
  exact hstate

/-- With nothing pending at the host, a tick's block steps lead to what the state's action gives in one go. -/
theorem Ticking.runsTo {st : SessState} {s u : State} {p : Prog} {x : Session} {moved : Bool} (h : Ticking st s)
    (hst : st ≠ .idle) (haction : sessionAction s s.tickNow = p) (hgives : p.Gives s.ticked (u.tickEnd x moved)) :
    RunsTo s (u.tickEnd x moved) := by
  obtain ⟨halone, hfresh, hopc, rfl⟩ := h
  have htick : (progOf .tick s).evalAll s = .next (u.tickEnd x moved) := by
    rw [progOf, tickProg_of_session hst]
    subst haction
    exact hgives
  have hfinishes : Finishes ((progOf .tick s).evalAll s) := by
    rw [htick]
    rintro _ ⟨⟩
    rfl
  obtain ⟨n, hn⟩ := run_eq_evalAll (i := .tick) halone hfresh hopc
    (fun fx hends => (tickProg_ticks s fx hends).forgetsReplies) hfinishes
  exact ⟨n, hn.trans htick⟩

end Sys2Proof.Machine

/-! PROOFS. The ticks that send: from StartPreamble to WaitTxFinish (45_read_sequencer.md R132 to R137). -/

namespace Sys2Proof.Machine

/-! ## StartPreamble -/

theorem preambleCountdown_ne_zero (preamble pace : Word) : preambleCountdown preamble pace ≠ 0 := by
  simp only [preambleCountdown]
  generalize (if pace = 0 then Config.paceQuotient preamble else preamble / pace) = q
  split
  · decide
  · assumption

theorem preambleCountdown_toNat {preamble pace : Word} (h : pace ≠ 0) :
    (preambleCountdown preamble pace).toNat = max 1 (preamble.toNat / pace.toNat) := by
  simp only [preambleCountdown, if_neg h]
  rw [← BitVec.toNat_udiv]
  generalize preamble / pace = q
  split
  next hzero => rw [hzero]; rfl
  next hpos =>
    have hne : q.toNat ≠ 0 := fun hzero => hpos (BitVec.eq_of_toNat_eq hzero)
    omega

/-- Settles O35: one transaction after the other, then the transition with the countdown. -/
theorem tickStartPreamble : Obligations.TickStartPreamble := by
  intro s h p outs
  refine ⟨preambleCountdown s.sess.budgets.preamble s.sess.budgets.pace, preambleCountdown_ne_zero _ _,
    preambleCountdown_toNat, ?_⟩
  have haction : sessionAction s s.tickNow = actStartPreamble s s.tickNow := by rw [sessionAction, h.state]
  rw [busTxns_append]
  exact h.runsTo (by decide) haction <| .strobe <| .applySeq <| .writeBurst <| .strobe <|
    .tickGoto (State.mapSess_eq (x := s.sess) (by simp) _) rfl

/-! ## StreamPreamble -/

/-- The occupancy is read, and the FIFO topped up when it is low (45_read_sequencer.md R133). -/
theorem paceTopUp_gives {s u t : State} {now : Word}
    (h : (paceStepEnd s now).Gives (busTxns u ([singleRead s.params s.params.txBytesAddr] ++
      (if (u.answer (singleRead s.params s.params.txBytesAddr) &&& s.params.cntMask).toNat < 8 then
        [burstWrite s.params s.params.fifoAddr (List.replicate 8 s.params.wakeByte)] else []))) t) :
    (paceTopUp s now).Gives u t := by
  refine .readReg ?_
  split at h
  next hlow => exact .pos hlow <| .writeBurst h
  next hfull => exact .neg hfull h

/-- TX is strobed unless the chip is in transmit. -/
theorem strobeTx_gives {c : Prop} [Decidable c] {p : Params} {k : Prog} {u t : State}
    (h : k.Gives (busTxns u (if c then [] else [strobeTxn p .tx])) t) :
    (if c then k else strobe p .tx k).Gives u t := by
  split at h
  next hin => exact .pos hin h
  next hout => exact .neg hout <| .strobe h

/-- Settles O36: nothing within the pacing interval, else the pacing step with its two conditional transactions. -/
theorem tickStreamPreamble : Obligations.TickStreamPreamble := by
  intro s h p
  have haction : sessionAction s s.tickNow = actStreamPreamble s s.tickNow := by rw [sessionAction, h.state]
  split
  next hearly => exact h.runsTo (by decide) haction <| .pos hearly <| .tickStay (State.eq_withSess rfl)
  next hdue =>
    intro readState inTx u readCount low v x
    have hsess : v.sess = s.sess := by simp [v, u]
    have paced {t : State} (hend : (paceStepEnd s s.tickNow).Gives v t) :
        (actStreamPreamble s s.tickNow).Gives s.ticked t :=
      .neg hdue <| .readReg <| strobeTx_gives <| paceTopUp_gives hend
    split
    next hzero => exact h.runsTo (by decide) haction <| paced <| .pos hzero <| .tickGoto (State.mapSess_eq hsess _) rfl
    next hmore => exact h.runsTo (by decide) haction <| paced <| .neg hmore <| .tickStay (State.mapSess_eq hsess _)

/-! ## StartRequest -/

/-- Settles O38: the register list, then the request stored by `writeRequest`. -/
theorem tickStartRequest : Obligations.TickStartRequest := by
  intro s h p payload frame
  have haction : sessionAction s s.tickNow = actStartRequest s s.tickNow := by rw [sessionAction, h.state]
  have hlen : payload.length = 19 := payloadOfMeter_length p s.sess.meterId
  have hsess : (writeRequest payload (busTxns s.ticked (seqTxns p p.reqSeq))).sess = s.sess := busTxns_sess s.ticked _
  refine ⟨_, h.runsTo (by decide) haction <| .applySeq <| .tickGoto (State.mapSess_eq hsess _) rfl, rfl,
    fun x => ?_⟩
  have hread := writeRequest_read hlen (busTxns s.ticked (seqTxns p p.reqSeq)) x
  rw [busTxns_mem, busTxns_params] at hread
  exact hread

/-! ## StreamRequest -/

/-- A written range of a buffer, byte by byte. -/
theorem State.readBytes_of_written {s : State} {a : HostAddr} {n : Nat} (h : writableRange a n = true)
    (hbytes : ∀ i, i < n → (s.mem.read (a.toNat + i)).isSome = true) :
    readableRange a n = true ∧
      ∃ bs, s.readBytes a n = some bs ∧ bs.length = n ∧ ∀ i, i < n → bs[i]? = s.mem.read (a.toNat + i) := by
  obtain ⟨hrange, hsome⟩ := State.readable_of_written h hbytes
  obtain ⟨bs, hread⟩ := Option.isSome_iff_exists.mp hsome
  obtain ⟨hlen, hbyte⟩ := State.readBytes_eq_some_iff.mp hread
  refine ⟨hrange, bs, hread, hlen, fun i hi => ?_⟩
  obtain ⟨hto, hwritable⟩ := writableRange_byte h hi
  rw [← hbyte i hi, State.readByte_of_writable hwritable, hto]

theorem ofNat_add_toNat (x : BitVec 16) (n : Nat) : x + BitVec.ofNat 16 n = BitVec.ofNat 16 (x.toNat + n) := by
  rw [BitVec.ofNat_add, BitVec.ofNat_toNat, BitVec.setWidth_eq]

/-- The count sent and the budget choose the exit of a StreamRequest tick, whatever led to its end. -/
theorem Ticking.runsTo_streamRequestEnd {s u : State} {n : Nat} (h : Ticking .streamRequest s)
    (hlen : s.sess.reqLen = 39) (hn : n ≤ 39) (hsess : u.sess = s.sess)
    (hsends : ∀ t, (streamRequestEnd s s.tickNow (BitVec.ofNat 16 n)).Gives u t →
      (actStreamRequest s s.tickNow).Gives s.ticked t) :
    let x := { s.sess with sent := BitVec.ofNat 16 n }
    RunsTo s (
      if n = 39 then u.tickEnd { x with state := .waitTxFinish, t0 := s.tickNow } true
      else if s.sess.budgets.txStream.toNat ≤ (s.tickNow - s.sess.t0).toNat then
        u.tickEnd { x with state := .fail, t0 := s.tickNow, failcode := .txStreamTimeout } true
      else u.tickEnd x false) := by
  have haction : sessionAction s s.tickNow = actStreamRequest s s.tickNow := by rw [sessionAction, h.state]
  have hall : BitVec.ofNat 16 n = s.sess.reqLen ↔ n = 39 := by
    rw [hlen, ← BitVec.toNat_inj, BitVec.toNat_ofNat, Nat.mod_eq_of_lt (by omega)]
    rfl
  have hfx := State.mapSess_eq hsess fun x => { x with sent := BitVec.ofNat 16 n }
  dsimp only
  split
  next hdone => exact h.runsTo (by decide) haction <| hsends _ <| .pos (hall.mpr hdone) <| .tickGoto hfx rfl
  next hmore =>
    have hmore := mt hall.mp hmore
    split
    next hlate =>
      exact h.runsTo (by decide) haction <| hsends _ <| .neg hmore <| .pos (expired_iff.mpr hlate) <| .tickFail hfx rfl
    next hwait =>
      exact h.runsTo (by decide) haction <| hsends _ <| .neg hmore <| .neg (mt expired_iff.mp hwait) <| .tickStay hfx

/-- Settles O39: underflow recovery, or a chunk of the request that TXB holds. -/
theorem tickStreamRequest : Obligations.TickStreamRequest := by
  intro s h hlen hsent hbytes p now readCount r finish
  split
  next huf =>
    exact h.runsTo_streamRequestEnd (n := 0) hlen (by omega) (by simp) fun t ht =>
      .readReg <| .pos huf <| .strobe <| .strobe ht
  next huf =>
    intro sent chunk
    have hchunk : requestChunk s (r &&& p.cntMask).toNat = chunk := by rw [requestChunk, hlen]; rfl
    have hfit : sent + chunk ≤ 39 := by omega
    clear_value chunk
    subst hchunk
    by_cases hpos : 0 < requestChunk s (r &&& p.cntMask).toNat
    · obtain ⟨hrange, bs, hread, hbslen, hbs⟩ := State.readBytes_of_written (s := s)
        (writableRange_txb (x := s.sess.sent) (by omega) hpos) fun i hi => by
          rw [txb_add_toNat (by omega), Nat.add_assoc]
          exact hbytes _ (by omega)
      refine ⟨bs, hbslen, fun i hi => ?_, ?_⟩
      · rw [hbs i hi, txb_add_toNat (by omega)]
      · rw [if_pos hpos]
        refine h.runsTo_streamRequestEnd hlen hfit (by simp) fun t ht =>
          .readReg <| .neg huf <| .pos hpos <| .readRange hrange hread <| .writeBurst ?_
        rw [ofNat_add_toNat]
        exact ht
    · have hzero := Nat.eq_zero_of_not_pos hpos
      refine ⟨[], hzero.symm, fun i hi => absurd hi (by omega), ?_⟩
      rw [if_neg hpos]
      refine h.runsTo_streamRequestEnd hlen hfit (by simp) fun t ht => .readReg <| .neg huf <| .neg hpos ?_
      rw [hzero, Nat.add_zero, BitVec.ofNat_toNat, BitVec.setWidth_eq] at ht
      exact ht

/-! ## WaitTxFinish -/

/-- Settles O40: the chip state is tested before the budget. -/
theorem tickWaitTxFinish : Obligations.TickWaitTxFinish := by
  intro s h p now readState inTx restored
  have haction : sessionAction s s.tickNow = actWaitTxFinish s now := by rw [sessionAction, h.state]
  have hsess : restored.sess = s.sess := busTxns_sess _ _
  split
  next hleft =>
    exact h.runsTo (by decide) haction <| .readReg <| .pos hleft <| .applySeq <| .tickGoto (State.eq_withSess hsess) rfl
  next hin =>
    split
    next hlate =>
      exact h.runsTo (by decide) haction <| .readReg <| .neg hin <| .pos (expired_iff.mpr hlate) <| .applySeq <|
        .tickFail (State.eq_withSess hsess) rfl
    next hwait =>
      exact h.runsTo (by decide) haction <| .readReg <| .neg hin <| .neg (mt expired_iff.mp hwait) <|
        .tickStay (State.eq_withSess rfl)

end Sys2Proof.Machine

/-! PROOFS. The ticks that receive, and Fail: from DataSetupStage1 to DataFetch2 (45_read_sequencer.md R138 to R143,
R146). -/

namespace Sys2Proof.Machine

/-! ## The set-ups -/

/-- Settles O41: the register list and two strobes; the target is bounded for a legal frame size. -/
theorem tickReceiveSetups : Obligations.TickReceiveSetups := by
  refine ⟨fun s h => ?ack, fun s h => ?data⟩
  case ack =>
    intro p
    have haction : sessionAction s s.tickNow = actDataSetupStage1 s s.tickNow := by rw [sessionAction, h.state]
    rw [busTxns_append]
    exact h.runsTo (by decide) haction <| .applySeq <| .strobe <| .strobe <|
      .tickGoto (State.eq_withSess (x := s.sess) (by simp)) rfl
  case data =>
    intro p target
    have haction : sessionAction s s.tickNow = actDataSetupStage2 s s.tickNow := by rw [sessionAction, h.state]
    refine ⟨by omega, ?_⟩
    rw [busTxns_append]
    exact h.runsTo (by decide) haction <| .applySeq <| .strobe <| .strobe <|
      .tickGoto (State.mapSess_eq (x := s.sess) (by simp) _) rfl

/-! ## The acknowledgement drained -/

/-- Settles O42: the drained bytes are not stored, whether there are any or not. -/
theorem tickDrainAck : Obligations.TickDrainAck := by
  intro s h p readCount c
  have haction : sessionAction s s.tickNow = actDataFetch1 s s.tickNow := by rw [sessionAction, h.state]
  refine h.runsTo (by decide) haction <| .readReg ?_
  split
  next hpos => exact .pos hpos <| .readBurst <| .tickGoto (State.eq_withSess (x := s.sess) (by simp)) rfl
  next hempty => exact .neg hempty <| .tickGoto (State.eq_withSess (x := s.sess) (by simp)) rfl

/-! ## The reply awaited -/

/-- Settles O43: data-ready is tested before the budget. -/
theorem tickDataWait : Obligations.TickDataWait := by
  intro s h p now ready u readRssi readLqi
  have haction : sessionAction s s.tickNow = actDataWaitSync2 s now := by rw [sessionAction, h.state]
  split
  next hready =>
    exact h.runsTo (by decide) haction <| .level <| .pos hready <| .readReg <| .readReg <|
      .tickGoto (State.mapSess_eq (x := s.sess) (by simp) _) rfl
  next hnot =>
    split
    next hlate =>
      exact h.runsTo (by decide) haction <| .level <| .neg hnot <| .pos (expired_iff.mpr hlate) <|
        .tickFail (State.eq_withSess (x := s.sess) rfl) rfl
    next hwait =>
      exact h.runsTo (by decide) haction <| .level <| .neg hnot <| .neg (mt expired_iff.mp hwait) <|
        .tickStay (State.eq_withSess rfl)

/-! ## The reply fetched -/

theorem hasSentinel_iff {bytes : List Byte} :
    hasSentinel bytes = true ↔ ∃ i, i < bytes.length ∧ bytes[i]? = some 0xFF := by
  simp only [hasSentinel, List.any_eq_true, beq_iff_eq, exists_eq_right, List.mem_iff_getElem?]
  exact exists_congr fun i => ⟨fun h => ⟨(List.getElem?_eq_some_iff.mp h).1, h⟩, And.right⟩

section Reply
variable {s : State} {got : List Byte}

/-- The bytes that have come stand in RAWB behind those received before (45_read_sequencer.md R143). -/
theorem storeReply_stored (s : State) {got : List Byte} (h : s.sess.recv.toNat ≤ 4096) :
    Stored s.mem (storeReply s got s).mem (0x2000 + s.sess.recv.toNat) got := by
  unfold storeReply
  split
  next hnil =>
    rw [List.isEmpty_iff.mp hnil]
    exact ⟨fun i hi => absurd hi (Nat.not_lt_zero i), fun _ _ => rfl⟩
  next =>
    rw [← rawb_add_toNat h]
    exact stored_write _ _ _

/-- Storing the reply changes the buffers and the count received. -/
theorem storeReply_eq {u : State} (hsess : u.sess = s.sess) (hmem : u.mem = s.mem) :
    storeReply s got u =
      { u with mem := (storeReply s got s).mem, sess := { s.sess with recv := received s got } } := by
  rw [← storeReply_sess got hsess, ← storeReply_mem_congr hmem]
  unfold storeReply
  split <;> rfl

/-- All that counts as received can be read back; whether a sentinel is among it shows in RAWB. -/
theorem readBytes_received (h : FitsReply s got) (htarget : s.sess.target.toNat ≤ 4096)
    (hbytes : ∀ i, i < s.sess.recv.toNat → (s.mem.read (0x2000 + i)).isSome = true) :
    readableRange rawb (received s got).toNat = true ∧
      ∃ raw, (storeReply s got s).readBytes rawb (received s got).toNat = some raw ∧
        (hasSentinel raw = true ↔ ∃ i, i < s.sess.recv.toNat + got.length ∧
          (storeReply s got s).mem.read (0x2000 + i) = some 0xFF) := by
  obtain ⟨hextends, hnew⟩ := storeReply_mem h s
  have hroom := h.target.trans htarget
  rw [h.received_toNat]
  obtain ⟨hrange, raw, hread, hlen, hraw⟩ := State.readBytes_of_written (s := storeReply s got s)
    (writableRange_rawb_start hroom) fun i hi => by
      by_cases hold : i < s.sess.recv.toNat
      · exact hextends.read _ (hbytes i hold)
      · exact hnew i (by omega) hi
  refine ⟨hrange, raw, hread, ?_⟩
  rw [hasSentinel_iff, hlen]
  exact exists_congr fun i => and_congr_right fun hi => by rw [hraw i hi, rawb_toNat]

/-- The count is read, and as many bytes fetched as the target still misses. -/
theorem actDataFetch2_gives {w t : State} {now : Word} {chunk : Nat}
    (hchunk : fetchChunk s (w.answer (singleRead s.params s.params.rxBytesAddr) &&& s.params.cntMask).toNat = chunk)
    (hroom : s.sess.recv.toNat + chunk ≤ 4096)
    (h : let u := w.after (singleRead s.params s.params.rxBytesAddr)
      let burst := burstRead s.params s.params.fifoAddr chunk
      (dataFetch2End s now (if 0 < chunk then (u.busTxn burst).1.drop 1 else [])).Gives
        (busTxns u (if 0 < chunk then [burst] else [])) t) : (actDataFetch2 s now).Gives w t := by
  subst hchunk
  refine .readReg ?_
  dsimp only at h
  split at h
  next hpos => exact .pos hpos <| .readBurst <| .pos hroom h
  next hnone => exact .neg hnone h

end Reply

/-- Settles O44: the bytes that have come are stored; then the target, the sentinel and the budget choose the exit. -/
theorem tickFetchReply : Obligations.TickFetchReply := by
  intro s h htarget hrecv hbytes p now readCount u c recv chunk burst got v x
  have haction : sessionAction s s.tickNow = actDataFetch2 s now := by rw [sessionAction, h.state]
  have hlen : got.length = chunk := by
    dsimp only [got]
    split
    next => rw [List.length_drop, State.busTxn_length, burstRead_length, Nat.add_sub_cancel]
    next hnone => exact (Nat.eq_zero_of_not_pos hnone).symm
  have hfits : FitsReply s got := ⟨by omega, .inr (by omega)⟩
  have hcount : received s got = BitVec.ofNat 16 (recv + chunk) := by rw [received, hlen, ofNat_add_toNat]
  have hfull : received s got = s.sess.target ↔ recv + chunk = s.sess.target.toNat := by
    rw [← BitVec.toNat_inj, hfits.received_toNat, hlen]
  obtain ⟨hrange, raw, hread, hsentinel⟩ := readBytes_received hfits htarget hbytes
  rw [hlen] at hsentinel
  refine ⟨(storeReply s got s).mem, hlen, storeReply_stored s (by omega), ?_⟩
  have fetched {t : State} (hend : (dataFetch2End s now got).Gives v t) : (actDataFetch2 s now).Gives s.ticked t :=
    have hroom : recv + chunk ≤ 4096 := by omega
    actDataFetch2_gives rfl hroom hend
  have stored {w : State} (hsess : w.sess = s.sess) (hmem : w.mem = s.mem) :
      storeReply s got w = { w with mem := (storeReply s got s).mem, sess := x } := by
    rw [storeReply_eq hsess hmem, hcount]
  have restored := stored (w := busTxns v (seqTxns p p.defaultSeq)) (by simp [v, u]) (by simp [v, u])
  split
  next hdone =>
    dsimp only
    split
    next hsome =>
      exact h.runsTo (by decide) haction <| fetched <| .pos (hfull.mpr hdone) <| .applySeq <|
        .readRange hrange hread <| .pos (hsentinel.mpr hsome) <| .tickGoto restored rfl
    next hnone =>
      exact h.runsTo (by decide) haction <| fetched <| .pos (hfull.mpr hdone) <| .applySeq <|
        .readRange hrange hread <| .neg (mt hsentinel.mp hnone) <| .tickFail restored rfl
  next hmore =>
    have hmore := mt hfull.mp hmore
    split
    next hlate =>
      exact h.runsTo (by decide) haction <| fetched <| .neg hmore <| .pos (expired_iff.mpr hlate) <| .applySeq <|
        .tickFail restored rfl
    next hwait =>
      exact h.runsTo (by decide) haction <| fetched <| .neg hmore <| .neg (mt expired_iff.mp hwait) <|
        .tickStay (stored (by simp [v, u]) (by simp [v, u]))

/-! ## Fail -/

/-- Settles O47: three strobes and the default registers, then Idle with `SFAIL`. -/
theorem Session.tickFail : Obligations.TickFail := by
  intro s h p u
  have haction : sessionAction s s.tickNow = actFail s s.tickNow := by rw [sessionAction, h.state]
  have hcsr : u.csr = s.csr := busTxns_csr _ _
  have hsess : u.sess = s.sess := busTxns_sess _ _
  exact h.runsTo (by decide) haction <| .strobe <| .strobe <| .strobe <| .applySeq <|
    .tickGoto (State.mapStatus_eq hcsr hsess _) rfl

end Sys2Proof.Machine

/-! PROOFS. A program of one pass comes to its end, so a command's block steps lead to what its program gives in one go
(60_exceptions.md R152, R153).

Only `ENTER_RX` asks for another pass. All other programs are walked once, for two facts together: they never ask, and
the effects they end with do not see the replies. -/

namespace Sys2Proof.Machine

/-! ## Programs of one pass -/

/-- Whatever it is answered, the program ends with an effect that satisfies `E`, or stops at a fault; it never asks for
another pass. -/
def Prog.Completes (E : (State → State) → Prop) : Prog → Prop
  | .done fx => E fx
  | .stop _ => True
  | .bus _ k => ∀ ins, (k ins).Completes E
  | .clock k => ∀ now, (k now).Completes E
  | .level k => ∀ l, (k l).Completes E
  | .csr _ k => ∀ w, (k w).Completes E
  | .again _ => False

namespace Prog.Completes

variable {E : (State → State) → Prop}

theorem allEnds {p : Prog} (h : p.Completes E) : p.AllEnds E := by
  intro fx hends
  induction hends with
  | done fx => exact h
  | bus _ _ _ ins _ ih => exact ih (h ins)
  | clock _ _ t _ ih => exact ih (h t)
  | level _ _ l _ ih => exact ih (h l)
  | csr _ _ _ w _ ih => exact ih (h w)

theorem finishes {p : Prog} (h : p.Completes E) (u : State) : Finishes (p.evalAll u) := by
  induction p generalizing u with
  | done fx => rintro _ ⟨⟩; rfl
  | stop f => rintro _ ⟨⟩
  | bus out k ih => exact ih _ (h _) _
  | clock k ih => exact ih _ (h _) _
  | level k ih => exact ih _ (h _) _
  | csr f k ih => exact ih _ (h _) _
  | again n => exact h.elim

/-! One rule for a branch, and one for each procedure that programs are written with. -/

theorem ite {c : Prop} [Decidable c] {p q : Prog} (hp : p.Completes E) (hq : q.Completes E) :
    (if c then p else q).Completes E := by
  split
  · exact hp
  · exact hq

theorem readRange {s : State} {a : HostAddr} {n : Nat} {k : List Byte → Prog} (h : ∀ bs, (k bs).Completes E) :
    (readRange s a n k).Completes E := by
  unfold Machine.readRange
  split
  · split
    · exact h _
    · trivial
  · trivial

theorem guardWrite {a : HostAddr} {n : Nat} {k : Prog} (h : k.Completes E) : (guardWrite a n k).Completes E :=
  ite h trivial

theorem writeReg {p : Params} {a : ChipAddr} {v : Byte} {k : Prog} (h : k.Completes E) :
    (writeReg p a v k).Completes E := fun _ => h

theorem readReg {p : Params} {a : ChipAddr} {k : Byte → Prog} (h : ∀ v, (k v).Completes E) :
    (readReg p a k).Completes E := by
  intro ins
  change (secondByte ins k).Completes E
  unfold secondByte
  split
  · exact h _
  · trivial

theorem readBurst {p : Params} {a : ChipAddr} {n : Nat} {k : List Byte → Prog} (h : ∀ bs, (k bs).Completes E) :
    (readBurst p a n k).Completes E := fun _ => ite (h _) trivial

theorem writeBurst {p : Params} {a : ChipAddr} {data : List Byte} {k : Prog} (h : k.Completes E) :
    (writeBurst p a data k).Completes E := fun _ => h

theorem strobe {p : Params} {c : Strobe} {k : Prog} (h : k.Completes E) : (strobe p c k).Completes E := fun _ => h

theorem applySeq {p : Params} {l : List (ChipAddr × Byte)} {k : Prog} (h : k.Completes E) :
    (applySeq p l k).Completes E := by
  induction l with
  | nil => exact h
  | cons _ _ ih => exact writeReg ih

theorem resetSeq {p : Params} {k : Prog} (h : k.Completes E) : (resetSeq p k).Completes E :=
  fun _ => strobe <| strobe <| strobe h

theorem probeSeq {p : Params} {k : ProbeResult → Prog} (h : ∀ r, (k r).Completes E) : (probeSeq p k).Completes E := by
  have attempts (left att : Nat) : (probeFrom p left att k).Completes E := by
    induction left generalizing att with
    | zero => exact readReg fun _ => readReg fun _ => h _
    | succ _ ih => exact readReg fun _ => readReg fun _ => ite (resetSeq (ih _)) (h _)
  exact attempts 2 1

theorem configureSeq {p : Params} {hz : Word} {k : BitVec 24 → Prog} (h : ∀ w, (k w).Completes E) :
    (configureSeq p hz k).Completes E :=
  applySeq <| writeReg <| writeReg <| writeReg <| writeReg <| h _

theorem readRegs {p : Params} {n : Nat} {a : ChipAddr} {got : List Byte} {k : List Byte → Prog}
    (h : ∀ bs, (k bs).Completes E) : (readRegs p n a got k).Completes E := by
  induction n generalizing a got with
  | zero => exact h _
  | succ _ ih => exact readReg fun _ => ih

end Prog.Completes

/-! ## The session's actions -/

theorem paceTopUp_completes (s : State) (now : Word) : (paceTopUp s now).Completes ForgetsReplies :=
  have stepEnd : (paceStepEnd s now).Completes ForgetsReplies := .ite (fun _ _ => rfl) fun _ _ => rfl
  .readReg fun _ => .ite (.writeBurst stepEnd) stepEnd

theorem streamRequestEnd_completes (s : State) (now : Word) (sent : BitVec 16) :
    (streamRequestEnd s now sent).Completes ForgetsReplies :=
  .ite (fun _ _ => rfl) (.ite (fun _ _ => rfl) fun _ _ => rfl)

theorem dataFetch2End_completes (s : State) (now : Word) (got : List Byte) :
    (dataFetch2End s now got).Completes ForgetsReplies := by
  have stored := storeReply_sessionEffect s got
  have goto : (tickGoto .decode now (storeReply s got)).Completes ForgetsReplies :=
    (TickEffect.goto (a := .dataFetch2) _ _ _ stored fun _ => rfl).forgetsReplies
  have fail {code : FailCode} (hedge : sessionEdge .dataFetch2 .fail code = true) :
      (tickFail code now (storeReply s got)).Completes ForgetsReplies :=
    (TickEffect.fail _ _ _ stored hedge).forgetsReplies
  have stay : (tickStay (storeReply s got)).Completes ForgetsReplies :=
    (TickEffect.stay (a := .dataFetch2) _ stored).forgetsReplies
  rw [dataFetch2End_eq]
  exact .ite (.applySeq <| .readRange fun _ => .ite goto (fail rfl)) (.ite (.applySeq <| fail rfl) stay)

/-- Every action of R131 is over in one pass. -/
theorem sessionAction_completes (s : State) (now : Word) : (sessionAction s now).Completes ForgetsReplies := by
  have stay : (tickStay id).Completes ForgetsReplies := fun _ _ => rfl
  have goto {next : SessState} : (tickGoto next now id).Completes ForgetsReplies := fun _ _ => rfl
  have fail {code : FailCode} : (tickFail code now id).Completes ForgetsReplies := fun _ _ => rfl
  unfold sessionAction
  cases s.sess.state
  case idle => exact stay
  case startPreamble => exact .strobe <| .applySeq <| .writeBurst <| .strobe fun _ _ => rfl
  case streamPreamble =>
    exact .ite stay <| .readReg fun _ => .ite (paceTopUp_completes s now) (.strobe <| paceTopUp_completes s now)
  case guardBeforeReq => exact .ite goto stay
  case startRequest => exact .applySeq fun _ _ => rfl
  case streamRequest =>
    exact .readReg fun _ => .ite (.strobe <| .strobe <| streamRequestEnd_completes s now _) <|
      .ite (.readRange fun _ => .writeBurst <| streamRequestEnd_completes s now _) (streamRequestEnd_completes s now _)
  case waitTxFinish => exact .readReg fun _ => .ite (.applySeq goto) (.ite (.applySeq fail) stay)
  case dataSetupStage1 => exact .applySeq <| .strobe <| .strobe goto
  case dataWaitSync1 => exact fun _ => .ite goto (.ite goto stay)
  case dataFetch1 => exact .readReg fun _ => .ite (.readBurst fun _ => goto) goto
  case dataSetupStage2 => exact .applySeq <| .strobe <| .strobe fun _ _ => rfl
  case dataWaitSync2 =>
    exact fun _ => .ite (.readReg fun _ => .readReg fun _ _ _ => rfl) (.ite fail stay)
  case dataFetch2 =>
    exact .readReg fun _ => .ite (.readBurst fun bs => .ite (dataFetch2End_completes s now bs) trivial)
      (dataFetch2End_completes s now [])
  case decode => exact .readRange fun _ => .ite (fun _ _ => rfl) (.ite (fun _ _ => rfl) fun _ _ => rfl)
  case publish => exact fun _ _ => rfl
  case fail => exact .strobe <| .strobe <| .strobe <| .applySeq fun _ _ => rfl

/-! ## The commands -/

theorem probeFlags_withReplies (r : ProbeResult) (u : State) (rs : List Reply) :
    probeFlags r (u.withReplies rs) = (probeFlags r u).withReplies rs := by
  unfold probeFlags
  split <;> rfl

theorem probe_forgetsReplies (r : ProbeResult) (v w : Word) :
    ForgetsReplies fun t => ((probeFlags r t).setResult0 v).setResult1 w := fun u rs => by
  dsimp only
  rw [probeFlags_withReplies]
  rfl

theorem init_forgetsReplies (r : ProbeResult) (f : BitVec 24) (v w : Word) :
    ForgetsReplies fun t => ((configured f (probeFlags r t)).setResult0 v).setResult1 w := fun u rs => by
  dsimp only
  rw [probeFlags_withReplies]
  rfl

theorem sentchkResults_forgetsReplies (bs : List Byte) : ForgetsReplies (sentchkResults bs) := fun u rs => by
  unfold sentchkResults
  split <;> rfl

theorem strobeProg_completes (s : State) : (strobeProg s).Completes ForgetsReplies := by
  unfold strobeProg
  split
  · refine .strobe fun u rs => ?_
    dsimp only
    split <;> rfl
  · trivial

theorem configureProg_completes (s : State) : (configureProg s).Completes ForgetsReplies :=
  .configureSeq fun _ _ _ => rfl

/-- Every command but the polling one is over in one pass, with an effect that does not see the replies. -/
theorem progOf_completes {i : Instr} (hi : i ≠ .enterRx) (s : State) : (progOf i s).Completes ForgetsReplies := by
  cases i
  case nop => exact fun _ _ => rfl
  case wreg => exact .writeReg fun _ _ => rfl
  case rreg => exact .readReg fun _ _ _ => rfl
  case rburst => exact .guardWrite <| .readBurst fun _ _ _ => rfl
  case wburst => exact .readRange fun _ => .writeBurst fun _ _ => rfl
  case strobe => exact strobeProg_completes s
  case reset => exact .resetSeq fun _ _ => rfl
  case probe => exact .probeSeq fun r => probe_forgetsReplies r _ _
  case configure => exact configureProg_completes s
  case enterRx => exact absurd rfl hi
  case init =>
    exact .probeSeq fun r => .ite (fun _ => .configureSeq fun f => init_forgetsReplies r f _ _)
      (probe_forgetsReplies r _ _)
  case diag => exact .readRegs fun _ _ _ => rfl
  case rssiDbm => exact fun _ _ => rfl
  case freqWord => exact fun _ _ => rfl
  case freqHz => exact fun _ _ => rfl
  case crc16 => exact .readRange fun _ _ _ => rfl
  case buildReq => exact fun _ _ => rfl
  case encode => exact .guardWrite <| .readRange fun _ _ _ => rfl
  case decode => exact .guardWrite <| .readRange fun _ _ _ => rfl
  case sentchk => exact .readRange sentchkResults_forgetsReplies
  case extract => exact .readRange fun _ _ _ => rfl
  case startRead => exact fun _ _ _ => rfl
  case tick => exact .ite (fun _ _ => rfl) fun now => sessionAction_completes s now

/-- Settles O8: the program is over in one pass and its effects do not see the replies, so cutting it into block steps
changes nothing. -/
theorem commandStepsRefineTheirProgram : Obligations.CommandStepsRefineTheirProgram := by
  intro i s hi halone hfresh hopc
  have hprog := progOf_completes hi s
  exact run_eq_evalAll halone hfresh hopc hprog.allEnds (hprog.finishes s)

end Sys2Proof.Machine

/-! PROOFS. The acceptance of a command word: the checks of a decoded command, and the step at a write of `CMD`
(60_exceptions.md R152, R154 to R156). -/

namespace Sys2Proof.Machine

/-! ## The checks of a decoded command -/

theorem allowedInSession_iff {i : Instr} :
    allowedInSession i = true ↔ i ∈ [.nop, .tick, .rssiDbm, .freqWord, .freqHz] := by
  cases i <;> decide

theorem State.submit_of_excluded {s : State} {i : Instr} (c : Option ErrCode) (hsess : s.sess.state ≠ .idle)
    (hi : allowedInSession i = false) : s.submit i c = s.refuse .busy := by
  unfold State.submit
  rw [sact_eq_true_iff.mpr hsess, hi]
  rfl

theorem State.submit_of_allowed {s : State} {i : Instr} (c : Option ErrCode)
    (h : ¬(s.sess.state ≠ .idle ∧ allowedInSession i = false)) :
    s.submit i c = c.elim (s.accept i) s.refuse := by
  have hpass : ¬(s.sact && !allowedInSession i) = true := by
    rwa [Bool.and_eq_true, sact_eq_true_iff, Bool.not_eq_true']
  unfold State.submit
  rw [if_neg hpass]
  cases c <;> rfl

/-- The ten commands without checks of their own (60_exceptions.md R154). -/
theorem checkOf_eq_none {i : Instr} (s : State)
    (hi : i ∈ [.reset, .probe, .configure, .enterRx, .init, .diag, .freqWord, .buildReq, .nop, .tick]) :
    checkOf i s = none := by
  simp only [List.mem_cons, List.not_mem_nil, or_false] at hi
  obtain rfl | rfl | rfl | rfl | rfl | rfl | rfl | rfl | rfl | rfl := hi <;> rfl

/-- Settles O4: session exclusion first, then the command's own check, then acceptance. -/
theorem submissionRefusesOrLatches : Obligations.SubmissionRefusesOrLatches := by
  refine ⟨?_, fun i s => checkOf_eq_none s⟩
  intro i s hidle refused
  rw [exec_eq, runCommand_idle hidle]
  congr 1
  simp only [← allowedInSession_iff, Bool.not_eq_true]
  split
  next hexcluded =>
    obtain ⟨hsess, hi⟩ := hexcluded
    exact State.submit_of_excluded _ hsess hi
  next hallowed =>
    rw [State.submit_of_allowed _ hallowed]
    cases checkOf i s <;> rfl

/-! ## The step at a write of `CMD` -/

/-- The state once a write of the word `w` to `CMD` has been taken from the host's events: the word is stored, without a
host fault. -/
def State.stored (s : State) (w : Word) (rest : List HostEvent) : State :=
  { s with csr := { s.csr with cmd := w }, port := { s.port with herr := false }, env := { s.env with host := rest } }

section CmdWrite
variable {s : State} {w : Word} {rest : List HostEvent}

theorem turn_cmdWrite (hrst : s.port.rstN = true) (hhost : s.env.host = wr32 0x000 w :: rest) :
    turn s = .next (onCmdWrite w (s.popHost rest)) := by
  have hcmd : isCmdWrite { addr := 0x000, size := .word, write := true, data := w } (s.popHost rest) = true := by
    have haddr : spaceOf 0x000 = 0 ∧ csrAt (offsetOf 0x000) = some .cmd := by decide
    simpa [isCmdWrite, hrst] using haddr
  rw [turn, hhost]
  exact if_pos hcmd

theorem onCmdWrite_of_busy (hbusy : s.engine.busy = true) :
    onCmdWrite w (s.popHost rest) = ((s.stored w rest).dropBusy, none) := if_pos hbusy

theorem onCmdWrite_of_ok {i : Instr} (hbusy : ¬s.engine.busy = true) (hw : decode w = .ok i) :
    onCmdWrite w (s.popHost rest) = (s.stored w rest, some i) := by
  refine (if_neg hbusy).trans ?_
  rw [hw]
  rfl

/-- Why a word is no instruction, as an error code (60_exceptions.md R154). -/
def errCodeOf : DecodeError → ErrCode
  | .illegalOpcode => .illegalOpcode
  | .reservedBits => .reservedBits

theorem onCmdWrite_of_error {e : DecodeError} (hbusy : ¬s.engine.busy = true) (hw : decode w = .error e) :
    onCmdWrite w (s.popHost rest) = ((s.stored w rest).refuse (errCodeOf e), none) := by
  refine (if_neg hbusy).trans ?_
  rw [hw]
  cases e <;> rfl

theorem step_of_turn_some {t : State} {i : Instr} (h : turn s = .next (t, some i)) : step s = exec i t := by
  rw [step, h]

theorem step_of_turn_none {t : State} (h : turn s = .next (t, none)) : step s = .next t := by
  rw [step, h]

theorem step_of_blockAlone_idle (h : BlockAlone s) (hidle : ¬s.engine.busy = true) : step s = .next s := by
  obtain ⟨hhost, _⟩ := h
  refine step_of_turn_none ?_
  simp [turn, hhost, blockTurn, hidle]

end CmdWrite

/-- Settles O3: the three answers of `onCmdWrite` to the stored word, and the block's own turn. -/
theorem stepRunsTheDecodedCommand : Obligations.StepRunsTheDecodedCommand := by
  refine ⟨?_, fun s i halone hopc => ?_⟩
  · intro s w rest hrst hhost u
    have hturn := turn_cmdWrite hrst hhost
    split
    next hbusy => exact step_of_turn_none (hturn.trans (congrArg _ (onCmdWrite_of_busy hbusy)))
    next hbusy =>
      cases hw : decode w with
      | ok i => exact step_of_turn_some (hturn.trans (congrArg _ (onCmdWrite_of_ok hbusy hw)))
      | error e =>
        have hstep := step_of_turn_none (hturn.trans (congrArg _ (onCmdWrite_of_error hbusy hw)))
        cases e <;> exact hstep
  · split
    next hbusy => exact step_of_blockAlone halone hbusy (instrOfOpcode_eq_some_iff.mpr hopc)
    next hidle => exact step_of_blockAlone_idle halone hidle

end Sys2Proof.Machine

/-! PROOFS. The state after reset and the reset line (70_reset_and_hazards.md R170, R171, 10_state.md R18). -/

namespace Sys2Proof.Machine

/-! ## The state after reset -/

/-- Settles O49: an idle engine and an idle session over empty buffers. -/
theorem resetMeetsTheInvariant : Obligations.ResetMeetsTheInvariant := by
  have hblock : BlockOk State.reset :=
    ⟨State.reset_mem_wf, .of_quiet (by decide : SessState.idle ∉ countingStates)⟩
  have hidle : State.reset.engine.busy ≠ true := Bool.false_ne_true
  exact .of_awake rfl hblock (by decide : (0 : Word) &&& ~~~ienMask = 0) (fun _ => rfl) fun hbusy => absurd hbusy hidle

/-- `NOW` reads 0 too: the model's clock input starts there (log 6). -/
theorem readCsr_reset (c : Csr) :
    readCsr State.reset c = if c = .blkid then 0x52410007 else if c = .learnWin then 0x0000FFFF else 0 := by
  cases c <;> rfl

theorem readByte_of_mem_nil {s : State} {a : HostAddr} (hmem : s.mem = []) (ha : writableRange a 1 = true) :
    s.readByte a = none := by
  rw [State.readByte_of_writable ha, hmem]
  rfl

/-- No enable in `IEN`, no interrupt. -/
theorem irq_of_ien_zero {s : State} (hien : s.csr.ien = 0) : s.irq = false := by
  simp [State.irq, hien]

/-- Settles O58: the registers one by one, and buffers without a cell. -/
theorem resetValues : Obligations.ResetValues :=
  ⟨fun c _ => readCsr_reset c, rfl, rfl, rfl, rfl, rfl, rfl, rfl, fun _ ha => readByte_of_mem_nil rfl ha, rfl,
    irq_of_ien_zero rfl, rfl⟩

/-! ## The reset line -/

section ResetLine
variable {s : State} {x : HostAccess} {rest : List HostEvent}

theorem step_resetFall (hhost : s.env.host = .rstN false :: rest) : step s = .next (s.popHost rest).blockReset := by
  refine step_of_turn_none ?_
  rw [turn, hhost]
  rfl

theorem step_access_inReset (hrst : s.port.rstN = false) (hhost : s.env.host = .access x :: rest) :
    step s = .next ((s.popHost rest).respond 0 false) := by
  have hcmd : isCmdWrite x (s.popHost rest) = false := by simp [isCmdWrite, hrst]
  rw [step_access hhost hcmd]
  exact if_pos hrst

theorem step_quiet_inReset (hrst : s.port.rstN = false) (hhost : s.env.host = []) : step s = .next s := by
  refine step_of_turn_none ?_
  simp [turn, hhost, blockTurn, hrst]

end ResetLine

/-- Settles O59: one step equation for the fall, one for an access during reset, one for no access. -/
theorem resetLineClearsTheBlock : Obligations.ResetLineClearsTheBlock :=
  ⟨fun _ _ hhost => ⟨_, step_resetFall hhost, rfl, rfl, rfl, rfl, rfl, rfl, rfl, irq_of_ien_zero rfl, rfl⟩,
    fun _ _ _ hrst hhost => step_access_inReset hrst hhost, fun _ hrst hhost => step_quiet_inReset hrst hhost⟩

end Sys2Proof.Machine
